-- ==== Sys2Proof/Word.lean ====
section
/-! DEFINITION. The bit-vector types of the block: channel and symbol bytes (R14), 32-bit interface
registers (R13), the 29-bit index field and the 64-bit host transaction word (R69). -/

namespace Sys2Proof

/-- An 8-bit unsigned value: a channel value, a PM or TB cell, a symbol (R14). -/
abbrev Byte := BitVec 8

/-- A 32-bit interface register, write data or read response (R13). -/
abbrev Word := BitVec 32

/-- The `IDX` field of a host transaction word: a register or byte index (R72). -/
abbrev Index := BitVec 29

/-- A 64-bit host transaction word, HTW (R69). -/
abbrev Htw := BitVec 64

end Sys2Proof
end

