-- ==== Sys2Proof/Config.lean ====
section
/-! DEFINITION. What is fixed when the block is built (00_scope.md R8 to R12, R21), and the free values (R17).
Every constant of R21 is a field of `Config`, a parameter of the step (R21, R100, D30, D31). A state carries its
configuration, and no step changes it (log 1). The values the spec gives the fields are those of `Config.build`
(log 2); they are premises of claims, as `Config.Valid`. -/

namespace Sys2Proof

/-- The three colour channels of a pixel (R79). -/
inductive Channel where
  | red
  | green
  | blue
deriving DecidableEq, Repr

/-- An output slot of a pixel: 0, 1 or 2; no slot 3 exists (R82). -/
abbrev Slot := Fin 3

/-- `CHANNEL_ORDER`: the channel of each output slot (R9). -/
structure ChannelOrder where
  slot0 : Channel
  slot1 : Channel
  slot2 : Channel
deriving DecidableEq, Repr

/-- The build-time parameters of the block (R8 to R11, R21) and the constants of the bus (R12, I1). -/
structure Config where
  /-- `HIGH_SYM`, the symbol of a protocol 1 bit (R8). -/
  highSym : Byte
  /-- `LOW_SYM`, the symbol of a protocol 0 bit (R8). -/
  lowSym : Byte
  /-- `RESET_BYTES`, the length of the zero tail (R9). -/
  resetBytes : Nat
  /-- `BITS_PER_LED`, the protocol bits of a pixel (R9). -/
  bitsPerLed : Nat
  /-- `CHANNEL_ORDER` (R9). -/
  channelOrder : ChannelOrder
  /-- `LED_COUNT`, the caller-side default; the block never compares with it (R10, C4). -/
  ledCount : Nat
  /-- `TB_CAPACITY`, the number of bytes of the transmit buffer (R11). -/
  tbCapacity : Nat
  /-- The SPI mode the Bus Session configures (R12). -/
  spiMode : Nat
  /-- The SPI word size in bits (R12). -/
  spiWordBits : Nat
  /-- The SPI clock in Hz (R12). -/
  spiClockHz : Nat
deriving DecidableEq, Repr

/-- `BYTES_PER_LED`: each protocol bit of a pixel becomes one symbol byte (R9). -/
def Config.bytesPerLed (c : Config) : Nat := c.bitsPerLed

/-- The channel of an output slot (R9, R82). -/
def Config.channel (c : Config) : Slot → Channel
  | 0 => c.channelOrder.slot0
  | 1 => c.channelOrder.slot1
  | 2 => c.channelOrder.slot2

/-- `N_MAX = floor((TB_CAPACITY − RESET_BYTES) / 24)` (R11). -/
def Config.nMax (c : Config) : Nat := (c.tbCapacity - c.resetBytes) / c.bytesPerLed

/-- `PM_CAPACITY = 3 × N_MAX` (R11). -/
def Config.pmCapacity (c : Config) : Nat := 3 * c.nMax

/-- A block with the constants the spec states and `TB_CAPACITY = cap`, the one parameter it leaves open (R8 to R12,
D5). UNVERIFIED literals, taken as normative (I1, log 2). -/
def Config.build (cap : Nat) : Config :=
  { highSym := 0x1F#8
    lowSym := 0x03#8
    resetBytes := 40
    bitsPerLed := 24
    channelOrder := { slot0 := .green, slot1 := .red, slot2 := .blue }
    ledCount := 60
    tbCapacity := cap
    spiMode := 0
    spiWordBits := 8
    spiClockHz := 6400000 }

/-- A configuration the spec allows: its constants, and a `TB_CAPACITY` that holds a one-pixel frame and fits the 29-bit
index (R8 to R13). -/
abbrev Config.Valid (c : Config) : Prop :=
  Config.build c.tbCapacity = c ∧ 64 ≤ c.tbCapacity ∧ c.tbCapacity ≤ 2 ^ 29

/-- The reference configuration, `TB_CAPACITY = 24 × LED_COUNT + RESET_BYTES = 1480` (R11). -/
def Config.reference : Config := Config.build (24 * 60 + 40)

/-- The byte of the reset tail and of a zeroed buffer (R97, R115). -/
def Config.tailByte : Byte := 0x00#8

/-- `draw` (R17): a byte the model leaves free. Nothing constrains it; State.draws counts the draws so that
each is a fresh argument (log 9). -/
opaque Config.freeByte : Nat → Byte

end Sys2Proof
end

