-- ==== Sys2Proof/Syntax.lean ====
section
/-! DEFINITION. The operations of the block: one constructor per row of spec/opcode_table.json (R92).
The operands are those of each rule's line "Operands". Fields of a host transaction word that the rule
says are ignored (WDATA of a read, WDATA[31:8] of a byte write) are no operands (log 14); the table's
selecting fields `c` of EXPAND8 and `p` of PIXEL24 name a place in the frame and are no operands (log 30). -/

namespace Sys2Proof

/-- A pixel: three independent 8-bit channel values, all combinations legal (R79). -/
structure Pixel where
  r : Byte
  g : Byte
  b : Byte
deriving DecidableEq, Repr

/-- The 27 operations of the opcode table. -/
inductive Instr where
  /-- `RD N_REG` (R124). -/
  | rdNreg
  /-- `WR N_REG, v` (R125). -/
  | wrNreg (v : Word)
  /-- `RD CTRL` (R126). -/
  | rdCtrl
  /-- `WR CTRL, v` (R127): bit 0 requests a START. -/
  | wrCtrl (v : Word)
  /-- `RD STATUS` (R128). -/
  | rdStatus
  /-- `WR STATUS, v` (R129). -/
  | wrStatus (v : Word)
  /-- `RD LEN` (R130). -/
  | rdLen
  /-- `WR LEN, v` (R131). -/
  | wrLen (v : Word)
  /-- `RDREG i`, `i >= 4` (R132). -/
  | rdRsvreg (i : Index)
  /-- `WRREG i, v`, `i >= 4` (R133). -/
  | wrRsvreg (i : Index) (v : Word)
  /-- `RDPM a` (R134). -/
  | rdPm (a : Index)
  /-- `WRPM a, d` (R135). -/
  | wrPm (a : Index) (d : Byte)
  /-- `RDTB a` (R136). -/
  | rdTb (a : Index)
  /-- `WRTB a, d` (R137). -/
  | wrTb (a : Index) (d : Byte)
  /-- `RDX a` (R138): the index is ignored. -/
  | rdRsvsp (a : Index)
  /-- `WRX a, v` (R139): index and value are ignored. -/
  | wrRsvsp (a : Index) (v : Word)
  /-- `SYM_HIGH` (R94): the symbol of a protocol 1 bit. -/
  | symHigh
  /-- `SYM_LOW` (R95): the symbol of a protocol 0 bit. -/
  | symLow
  /-- `TAIL_ZERO` (R97): byte `k` in the tail of a frame of `n` pixels. -/
  | tailZero (n k : Nat)
  /-- `EXPAND8` (R102): one channel value. -/
  | expand8 (v : Byte)
  /-- `PIXEL24` (R105): one pixel. -/
  | pixel24 (px : Pixel)
  /-- `ENCODE` (R110): a Pixel Sequence of at least one pixel. -/
  | encode (pixels : List Pixel)
  /-- `START_IGNORE` (R113): a START request in BUSY. -/
  | startIgnore
  /-- `START_REJECT` (R114): a START request outside BUSY with an invalid count. -/
  | startReject
  /-- `START_ACCEPT` (R115): a START request outside BUSY with a valid count. -/
  | startAccept
  /-- `ENGINE_STEP` (R116): the engine writes one symbol byte. -/
  | engineStep
  /-- `RESET` (R177): the reset input. -/
  | reset
deriving DecidableEq, Repr

end Sys2Proof
end

