-- ==== Sys2Proof/WellFormed.lean ====
section
/-! DEFINITION. Which operands an operation may have, where its rule limits them: a reserved register index
is at least 4 (R132, R133), a tail index lies in the tail of a frame (R97), a frame has a pixel (R109).
The tail's place is that of the configuration `c`; `N_MAX` is no part of it: whether the block can hold the frame is
checked where the operation runs (R11). -/

namespace Sys2Proof

/-- The operands are ones the rule gives the operation. -/
def Instr.wellFormed (c : Config) : Instr → Bool
  | .rdNreg => true
  | .wrNreg _ => true
  | .rdCtrl => true
  | .wrCtrl _ => true
  | .rdStatus => true
  | .wrStatus _ => true
  | .rdLen => true
  | .wrLen _ => true
  | .rdRsvreg i => decide (4 ≤ i.toNat)
  | .wrRsvreg i _ => decide (4 ≤ i.toNat)
  | .rdPm _ => true
  | .wrPm _ _ => true
  | .rdTb _ => true
  | .wrTb _ _ => true
  | .rdRsvsp _ => true
  | .wrRsvsp _ _ => true
  | .symHigh => true
  | .symLow => true
  | .tailZero n k =>
    decide (1 ≤ n) && decide (c.bytesPerLed * n ≤ k) &&
      decide (k < c.bytesPerLed * n + c.resetBytes)
  | .expand8 _ => true
  | .pixel24 _ => true
  | .encode pixels => decide (1 ≤ pixels.length)
  | .startIgnore => true
  | .startReject => true
  | .startAccept => true
  | .engineStep => true
  | .reset => true

end Sys2Proof
end

