-- ==== Sys2Proof/Decode.lean ====
section
/-! DEFINITION. The host transaction word and its decoder and encoder (30_encoding.md R69 to R74, R85, R88, R92).
Every 64-bit value is a valid HTW, so `decode` refuses nothing. The internal operations have no HTW encoding
(R92), so `encode` gives a word exactly for the sixteen host transactions. The HTW is one 64-bit number; the
spec gives it no byte order (R55, log 15). -/

namespace Sys2Proof

/-- The address spaces the `SP` field selects (R45, R70). -/
inductive Space where
  | reg
  | pm
  | tb
  | rsv
deriving DecidableEq, Repr

/-- `SP`, HTW[63:62] (R70). -/
def htwSp (w : Htw) : BitVec 2 := w.extractLsb' 62 2

/-- `WE`, HTW[61] (R71). -/
def htwWe (w : Htw) : Bool := w.getLsbD 61

/-- `IDX`, HTW[60:32] (R72). -/
def htwIdx (w : Htw) : Index := w.extractLsb' 32 29

/-- `WDATA`, HTW[31:0] (R73). -/
def htwWdata (w : Htw) : Word := w.extractLsb' 0 32

/-- The byte a PM or TB write takes from `WDATA` (R73, R93 (b)). -/
def lowByte (v : Word) : Byte := v.extractLsb' 0 8

/-- The space an `SP` code names (R70). -/
def spaceOf (sp : BitVec 2) : Space :=
  if sp = 0#2 then .reg else if sp = 1#2 then .pm else if sp = 2#2 then .tb else .rsv

/-- Read of the register space, by index (R92). -/
def decodeRegRead (i : Index) : Instr :=
  if i = 0#29 then .rdNreg
  else if i = 1#29 then .rdCtrl
  else if i = 2#29 then .rdStatus
  else if i = 3#29 then .rdLen
  else .rdRsvreg i

/-- Write of the register space, by index (R92). -/
def decodeRegWrite (i : Index) (v : Word) : Instr :=
  if i = 0#29 then .wrNreg v
  else if i = 1#29 then .wrCtrl v
  else if i = 2#29 then .wrStatus v
  else if i = 3#29 then .wrLen v
  else .wrRsvreg i v

/-- The host transaction of a word: SP first, then WE, then for REG the index (R92, R123). -/
def decode (w : Htw) : Instr :=
  match spaceOf (htwSp w), htwWe w with
  | .reg, false => decodeRegRead (htwIdx w)
  | .reg, true => decodeRegWrite (htwIdx w) (htwWdata w)
  | .pm, false => .rdPm (htwIdx w)
  | .pm, true => .wrPm (htwIdx w) (lowByte (htwWdata w))
  | .tb, false => .rdTb (htwIdx w)
  | .tb, true => .wrTb (htwIdx w) (lowByte (htwWdata w))
  | .rsv, false => .rdRsvsp (htwIdx w)
  | .rsv, true => .wrRsvsp (htwIdx w) (htwWdata w)

/-- A word from its four fields, most significant first (R69). -/
def mkHtw (sp : BitVec 2) (we : Bool) (idx : Index) (wdata : Word) : Htw :=
  sp ++ BitVec.ofBool we ++ idx ++ wdata

/-- The word of a host transaction; fields that are no operands are 0 (R89). An internal operation has
no word (R92). -/
def encode : Instr → Option Htw
  | .rdNreg => some (mkHtw 0#2 false 0#29 0#32)
  | .wrNreg v => some (mkHtw 0#2 true 0#29 v)
  | .rdCtrl => some (mkHtw 0#2 false 1#29 0#32)
  | .wrCtrl v => some (mkHtw 0#2 true 1#29 v)
  | .rdStatus => some (mkHtw 0#2 false 2#29 0#32)
  | .wrStatus v => some (mkHtw 0#2 true 2#29 v)
  | .rdLen => some (mkHtw 0#2 false 3#29 0#32)
  | .wrLen v => some (mkHtw 0#2 true 3#29 v)
  | .rdRsvreg i => some (mkHtw 0#2 false i 0#32)
  | .wrRsvreg i v => some (mkHtw 0#2 true i v)
  | .rdPm a => some (mkHtw 1#2 false a 0#32)
  | .wrPm a d => some (mkHtw 1#2 true a (d.setWidth 32))
  | .rdTb a => some (mkHtw 2#2 false a 0#32)
  | .wrTb a d => some (mkHtw 2#2 true a (d.setWidth 32))
  | .rdRsvsp a => some (mkHtw 3#2 false a 0#32)
  | .wrRsvsp a v => some (mkHtw 3#2 true a v)
  | .symHigh => none
  | .symLow => none
  | .tailZero _ _ => none
  | .expand8 _ => none
  | .pixel24 _ => none
  | .encode _ => none
  | .startIgnore => none
  | .startReject => none
  | .startAccept => none
  | .engineStep => none
  | .reset => none

/-- The word the opcode table's bits `w` stand for: one 64-bit number, bits above `nbits` zero (R69). -/
def tableWord (nbits w : Nat) : Htw := BitVec.ofNat 64 (w % 2 ^ nbits)

/-- What the decoder reads from a row of the opcode table. A row without bits is an internal operation and
has no word to decode (R92, log 15). -/
def decodeTableWord (nbits w : Nat) : Option Instr :=
  if nbits = 0 then none else some (decode (tableWord nbits w))

end Sys2Proof
end

