-- ==== Sys2Proof/Machine/State.lean ====
section
/-! DEFINITION. The state of the machine: what 10_state.md R20 gives the block, the handles and the running call
of the reference host (43_host_interface.md R141 to R149), and the model's own bookkeeping. INVENTORY.md lists
every field with its rule and reset value. -/

namespace Sys2Proof.Machine

/-- The spec's model fault reasons, with the recorded index (R160 to R162). A step that meets one adds it to
`State.faults` and goes on (R163); no step ends in `Outcome.fault`. Unsafe for a claim that does not take
"`faults` is empty" as a premise: the hardware result is unspecified after it (log 12). -/
inductive Fault where
  /-- Recorded by WR_PM in BUSY (R160). Unsafe unless `faults` empty is a premise. -/
  | pmWriteBusy (a : Nat)
  /-- Recorded by WR_TB in BUSY (R161). Unsafe unless `faults` empty is a premise. -/
  | tbWriteBusy (a : Nat)
  /-- Recorded by ENGINE_STEP loading a PM byte no host write has set (R162); the byte is a free value. Safe in
  itself. -/
  | uninitPm (a : Nat)
deriving DecidableEq, Repr

/-- Why an operation has no meaning in a state. `step` never ends in one of these. -/
inductive Refusal where
  /-- Raised by the arms of `exec` for an operation the model does not cover. Safe. No arm is left with it. -/
  | notModelled (mnemonic : String)
  /-- Raised by an internal operation whose selecting condition does not hold: the spec enables START_IGNORE,
  START_REJECT, START_ACCEPT, ENGINE_STEP and TAIL_ZERO only under it (R97, R112, R116), so there is no such
  step. Safe: the model allows no behaviour there (log 8). -/
  | notEnabled (mnemonic : String)
  /-- Raised by ENCODE of no pixel: the function is defined only for N ≥ 1 (R109). Safe (log 8). -/
  | emptyFrame
deriving DecidableEq, Repr

/-- `STATUS.PHASE` (R25, R28). -/
inductive Phase where
  | idle
  | busy
  | done
  | error
deriving DecidableEq, Repr

/-- `STATUS.ERR` (R26). The reserved codes 3 to 15 are never produced and have no constructor (log 24). -/
inductive Err where
  | none
  /-- `E_COUNT` (R155). -/
  | count
  /-- `E_CAPACITY` (R156). -/
  | capacity
deriving DecidableEq, Repr

/-- The fields of `STATUS` (R24). The word a read returns is `statusWord`. -/
structure Status where
  phase : Phase
  err : Err
  ovr : Bool
deriving DecidableEq, Repr

/-- What a START request leads to (R112). -/
inductive StartOutcome where
  | ignore
  | reject (e : Err)
  | accept (n : Nat)
deriving DecidableEq, Repr

/-- A byte memory: the bytes that hold a value, by address. An address that is not listed has no value yet:
`pm_written` or `tb_defined` is false for it, and a read of it is a free value (R34, R35, log 11). -/
abbrev Memory := List Host.Cell

/-- The canonical form: addresses strictly rising. No entry can equal what an unlisted address reads as, since
an unlisted address has no value. -/
abbrev Memory.wf (m : Memory) : Prop := m.Pairwise (fun x y => x.1 < y.1)

/-- Every listed address lies below the capacity. -/
abbrev Memory.below (m : Memory) (cap : Nat) : Prop := ∀ x ∈ m, x.1 < cap

/-- The two states of a handle (R141). -/
inductive Handle where
  /-- Initial, and terminal after `close`. -/
  | closed
  | opened
deriving DecidableEq, Repr

/-- What the platform's transfer primitive reports: the bytes transferred, or a negative or error signal with its
diagnostic (R149, R175; that the diagnostic is an integer is the model's, log 34). -/
inductive TransferAnswer where
  | transferred (bytes : Nat)
  | failed (diagnostic : Int)
deriving DecidableEq, Repr

/-- The errors the Bus Session returns to its caller (R172 to R175). -/
inductive CallError where
  | configuration
  | invalidArgument
  | allocation
  /-- With what the platform reported (R175). -/
  | transfer (reported : TransferAnswer)
deriving DecidableEq, Repr

/-- What a call of the Bus Session returned (R142, R143, R147). -/
inductive CallResult where
  /-- With the new handle's number. -/
  | opened (handle : Nat)
  | closed
  | sent (bytes : Nat)
  | failed (e : CallError)
deriving DecidableEq, Repr

/-- The pixels a `send` is given: a Pixel Sequence, or an argument with a negative count, which has no pixel
(R144, R173). -/
inductive PixelArg where
  | sequence (pixels : List Pixel)
  /-- The count `−(k + 1)`. -/
  | negative (k : Nat)
deriving DecidableEq, Repr

/-- A call of the Bus Session with what the platform answers it. A handle is named by its number; a number that no
`open` has returned, a negative one too, names no open handle (R144, log 20). -/
inductive Call where
  /-- `open(path)`: whether the path opens, and whether the configuration calls succeed, which the reference does
  not check (R142, R151). -/
  | openPath (pathOpens configOk : Bool)
  /-- `close(handle)` (R143). -/
  | closeHandle (handle : Int)
  /-- `send(handle, pixels)` and the answer its one transfer will get (R144 to R147). -/
  | sendPixels (handle : Int) (arg : PixelArg) (answer : TransferAnswer)
deriving DecidableEq, Repr

/-- One request to the transfer primitive (R146). -/
structure Transfer where
  /-- The handle whose channel carries it. -/
  handle : Int
  buf : List Byte
  len : Nat
  clockHz : Nat
  wordBits : Nat
deriving DecidableEq, Repr

/-- Where a `send` stands in the host program of R145. -/
inductive Stage where
  /-- The next PM byte to write. -/
  | load (i : Nat)
  | setCount
  | start
  | poll
  | readLen
  /-- `LEN` as read and the TB bytes collected so far; with all of them collected, the transfer comes next. -/
  | dump (len : Nat) (buf : List Byte)
deriving DecidableEq, Repr

/-- A `send` in progress. -/
structure Job where
  /-- The handle it was called with; no call can close it before the send ends (R149). -/
  handle : Int
  pixels : List Pixel
  answer : TransferAnswer
  stage : Stage
deriving DecidableEq, Repr

/-- The Bus Session, the reference host (R140). -/
structure Bus where
  /-- Every handle that an `open` has returned, by its number; a new one goes to the end (R141, R142). -/
  handles : List Handle
  job : Option Job
  result : Option CallResult
  /-- The requests made so far, oldest first. -/
  transfers : List Transfer
deriving DecidableEq, Repr

/-- What comes next, as data: which agent moves, and with what (R7, R63, log 3). -/
inductive Input where
  /-- The host issues a transaction (R123). -/
  | host (w : Htw)
  /-- The engine takes its step, if it has one (R116). -/
  | engine
  /-- The reset input (R177). -/
  | reset
  /-- The Bus Session takes its next step, if it has one (R145). -/
  | session
  /-- The caller calls the Bus Session (R142 to R144). -/
  | call (c : Call)
deriving DecidableEq, Repr

structure State where
  /-- The build-time parameters; no step changes them (R21). The model's own field (log 1). -/
  cfg : Config
  /-- `N_REG` (R22). -/
  nReg : Word
  /-- `STATUS` (R24). -/
  status : Status
  /-- `LEN` (R29). -/
  len : Word
  /-- `eng.k` (R31). -/
  engK : Nat
  /-- `eng.n` (R32). -/
  engN : Nat
  /-- `eng.px` (R33). -/
  engPx : Pixel
  /-- `PM` with `pm_written` (R34). -/
  pm : Memory
  /-- `TB` with `tb_defined` (R35). -/
  tb : Memory
  /-- `faults` (R36), in order of first occurrence, without repeats (log 25). -/
  faults : List Fault
  /-- How many free values have been drawn. The model's own field (log 9). -/
  draws : Nat
  /-- `RDATA` of the last host transaction, none after a write (R74). The model's own field (log 5). -/
  rdata : Option Word
  /-- The bytes the last internal function operation produced. The model's own field (log 6). -/
  out : List Byte
  /-- What the environment asks for next. The model's own field (log 3). -/
  inputs : List Input
  /-- The Bus Session (R140). -/
  bus : Bus
deriving DecidableEq, Repr

/-- The Bus Session before any call: no handle is open (R141). -/
def Bus.initial : Bus :=
  { handles := [], job := none, result := none, transfers := [] }

/-- Power-on of a block built with configuration `c` (R43, R180). `eng.px` is unspecified there: (0, 0, 0) is a
DESIGN CHOICE (log 10). -/
def State.powerOn (c : Config) : State :=
  { cfg := c
    nReg := 0#32
    status := { phase := .idle, err := .none, ovr := false }
    len := 0#32
    engK := 0
    engN := 0
    engPx := { r := 0#8, g := 0#8, b := 0#8 }
    pm := []
    tb := []
    faults := []
    draws := 0
    rdata := none
    out := []
    inputs := []
    bus := Bus.initial }

/-- The launch state of the reference configuration (R11, R43). -/
def State.reset : State := State.powerOn Config.reference

end Sys2Proof.Machine
end

