-- ==== Sys2Proof/Machine/Operands.lean ====
section
/-! DEFINITION. Operand assembly (30_encoding.md R75, R81 to R83, R93) and the pure map from pixels to frame
bytes (40_bit_symbol.md R96, 41_channel_pixel.md R101 to R105, 42_frame.md R108, R110). Nothing here reads or
changes a state: this is the source's "pure transformation" (R44). The build-time parameters are the argument `c`
(R21, R100). -/

namespace Sys2Proof.Machine

/-- `s32(v)`, the two's complement reading of a 32-bit pattern (R14, R75). -/
def s32 (v : Word) : Int := v.toInt

/-- `zext_32(b)`, a byte as a read response (R14, R74). -/
def zext32 (b : Byte) : Word := b.setWidth 32

/-- `bit(v, j) = v[j]`, bit 7 the most significant (R101). -/
def bit (v : Byte) (j : Nat) : Bool := v.getLsbD j

/-- The bit-to-symbol map (R96). -/
def sym (c : Config) (b : Bool) : Byte := if b then c.highSym else c.lowSym

/-- The inverse of `sym` on symbol bytes; no other byte is a symbol (R98). -/
def unsym (c : Config) (v : Byte) : Option Bool :=
  if v = c.highSym then some true else if v = c.lowSym then some false else none

/-- A channel value of a pixel (R79). -/
def channelOf (px : Pixel) : Channel → Byte
  | .red => px.r
  | .green => px.g
  | .blue => px.b

/-- `chan(px, slot)`: the channel in an output slot (R104). -/
def chan (c : Config) (px : Pixel) (slot : Slot) : Byte := channelOf px (c.channel slot)

/-- `expand8(v)`: most significant bit first (R102). -/
def expand8 (c : Config) (v : Byte) : List Byte :=
  [sym c (bit v 7), sym c (bit v 6), sym c (bit v 5), sym c (bit v 4),
   sym c (bit v 3), sym c (bit v 2), sym c (bit v 1), sym c (bit v 0)]

/-- `pixel24(px)`: slots 0, 1, 2 in order (R105). -/
def pixel24 (c : Config) (px : Pixel) : List Byte :=
  expand8 c (chan c px 0) ++ expand8 c (chan c px 1) ++ expand8 c (chan c px 2)

/-- `frame_len(N) = 24 × N + RESET_BYTES` (R108). -/
def frameLen (c : Config) (n : Nat) : Nat := c.bytesPerLed * n + c.resetBytes

/-- `encode(pixels)`: the pixels in order, then the zero tail (R110). -/
def encodePixels (c : Config) (pixels : List Pixel) : List Byte :=
  pixels.flatMap (pixel24 c) ++ List.replicate c.resetBytes Config.tailByte

/-- The pixel index of TB index `k` in the pixel region: `k div 24` (R81). -/
def pixelIndex (c : Config) (k : Nat) : Nat := k / c.bytesPerLed

/-- The channel slot of TB index `k`: `(k mod 24) div 8`, below 3 since a pixel has 24 bytes (R81, R82). -/
def slotOf (c : Config) (k : Nat) : Slot := Fin.ofNat 3 (k % c.bytesPerLed / 8)

/-- The symbol position of TB index `k` within its channel: `k mod 8` (R81, R83). -/
def positionOf (k : Nat) : Nat := k % 8

/-- The byte at TB index `k` of the pixel region, from the pixel it belongs to (R81, R116). -/
def symbolAt (c : Config) (px : Pixel) (k : Nat) : Byte := sym c (bit (chan c px (slotOf c k)) (7 - positionOf k))

/-- The PM index of the byte of slot `c` of pixel `p`: `3p + [1, 0, 2][c]` (R46, R93 (d)). -/
def pmIndex (p : Nat) : Channel → Nat
  | .red => 3 * p
  | .green => 3 * p + 1
  | .blue => 3 * p + 2

/-- Whether `k` lies in the tail of a frame of `n` pixels (R97). -/
def inTail (c : Config) (n k : Nat) : Bool :=
  decide (c.bytesPerLed * n ≤ k) && decide (k < frameLen c n)

end Sys2Proof.Machine
end

