-- ==== Sys2Proof/Machine/Flags.lean ====
section
/-! DEFINITION. Everything the spec computes about `STATUS`: the codes and the word (10_state.md R24 to R28,
30_encoding.md R77), the judgement of a START request (42_frame.md R112, 60_exceptions.md R158) and the
status each event leaves. -/

namespace Sys2Proof.Machine

/-- The `PHASE` code (R25). -/
def phaseCode : Phase → BitVec 2
  | .idle => 0#2
  | .busy => 1#2
  | .done => 2#2
  | .error => 3#2

/-- The `ERR` code (R26, R154). -/
def errCode : Err → BitVec 4
  | .none => 0#4
  | .count => 1#4
  | .capacity => 2#4

/-- `STATUS = {23'b0, OVR, ERR[3:0], 2'b0, PHASE[1:0]}` (R77). -/
def statusWord (st : Status) : Word :=
  0#23 ++ BitVec.ofBool st.ovr ++ errCode st.err ++ 0#2 ++ phaseCode st.phase

/-- The `PHASE` field of a `STATUS` word (R24). -/
def phaseField (w : Word) : BitVec 2 := w.extractLsb' 0 2

/-- The `ERR` field of a `STATUS` word (R24). -/
def errField (w : Word) : BitVec 4 := w.extractLsb' 4 4

/-- Whether a written `CTRL` value requests a START: bit 0 (R76). -/
def requestsStart (v : Word) : Bool := v.getLsbD 0

/-- The judgement of a START request, first case that applies: BUSY, count not positive, frame too large,
else accepted (R112, R158). The comparison is on unbounded integers. -/
def startOutcome (c : Config) (ph : Phase) (nReg : Word) : StartOutcome :=
  if ph = .busy then .ignore
  else if s32 nReg ≤ 0 then .reject .count
  else if (c.bytesPerLed : Int) * s32 nReg + c.resetBytes > c.tbCapacity then .reject .capacity
  else .accept (s32 nReg).toNat

/-- After reset (R42). -/
def statusIdle : Status := { phase := .idle, err := .none, ovr := false }

/-- After an ignored START: only `OVR` is set (R113). -/
def statusOverrun (st : Status) : Status := { st with ovr := true }

/-- After a rejected START (R114). -/
def statusError (e : Err) : Status := { phase := .error, err := e, ovr := false }

/-- After an accepted START (R115). -/
def statusBusy : Status := { phase := .busy, err := .none, ovr := false }

/-- At completion: only `PHASE` changes (R117). -/
def statusDone (st : Status) : Status := { st with phase := .done }

end Sys2Proof.Machine
end

