-- ==== Sys2Proof/Machine/HostProgram.lean ====
section
/-! DEFINITION. Host programs: the transactions and pseudo-instructions of 30_encoding.md R89 to R91 as lists of
host transaction words. `POLL` has no fixed length (R90): here it is a number of `RD STATUS`; the Bus Session
(BusSession.lean) polls until PHASE is not BUSY. -/

namespace Sys2Proof.Machine

/-- `WR N_REG, v` (R89). -/
def wrNregWord (v : Word) : Htw := mkHtw 0#2 true 0#29 v

/-- `START`, that is `WR CTRL, 1` (R90). -/
def startWord : Htw := mkHtw 0#2 true 1#29 1#32

/-- `RD STATUS` (R89). -/
def rdStatusWord : Htw := mkHtw 0#2 false 2#29 0#32

/-- `RD LEN` (R89). -/
def rdLenWord : Htw := mkHtw 0#2 false 3#29 0#32

/-- The index field for byte `a`. One that does not fit 29 bits becomes the largest index, which lies past every
capacity, so that the access stays one that names no byte (R13, R60, log 19). -/
def indexField (a : Nat) : Index := if a < 2 ^ 29 then BitVec.ofNat 29 a else BitVec.ofNat 29 (2 ^ 29 - 1)

/-- The count a `send` writes for `n` pixels. One that is no positive `s32` becomes the largest one, which is past every
`N_MAX` (R75, log 19). -/
def countField (n : Nat) : Word := if n < 2 ^ 31 then BitVec.ofNat 32 n else BitVec.ofNat 32 (2 ^ 31 - 1)

/-- `WRPM a, b` (R89). -/
def wrPmWord (a : Nat) (d : Byte) : Htw := mkHtw 1#2 true (indexField a) (d.setWidth 32)

/-- `RDTB a` (R89). -/
def rdTbWord (a : Nat) : Htw := mkHtw 2#2 false (indexField a) 0#32

/-- `LOADPX p, r, g, b` (R90). -/
def loadPx (p : Nat) (px : Pixel) : List Htw :=
  [wrPmWord (pmIndex p .red) px.r, wrPmWord (pmIndex p .green) px.g, wrPmWord (pmIndex p .blue) px.b]

/-- `POLL` of `m` reads (R90). -/
def poll (m : Nat) : List Htw := List.replicate m rdStatusWord

/-- `DUMPTB n` (R90). -/
def dumpTb (n : Nat) : List Htw := (List.range n).map rdTbWord

/-- `ENCODEFRAME n` with a `POLL` of `m` reads: `n` is written to `N_REG` as it is, a count the block will reject too
(R90, R125). -/
def encodeFrame (n : Word) (m : Nat) : List Htw := [wrNregWord n, startWord] ++ poll m

/-- A host program as inputs of the machine (R91). -/
def hostInputs (program : List Htw) : List Input := program.map .host

end Sys2Proof.Machine
end

