-- ==== Sys2Proof/Machine/BusSession.lean ====
section
/-! DEFINITION. The Bus Session, the reference host, at its interface (43_host_interface.md R140 to R151,
60_exceptions.md R172 to R176). Its `send` drives the block by the host program of R145, one transaction a turn,
and then makes one transfer request. Opening and configuring the device and the transfer itself are outside
(00_scope.md R4): what the platform answers comes with the call. -/

namespace Sys2Proof.Machine

/-- The bytes `LOADPX` writes for a Pixel Sequence, in PM order R, G, B (R46). -/
def pixelBytes (pixels : List Pixel) : List Byte := pixels.flatMap (fun px => [px.r, px.g, px.b])

/-- The pixels of a `send` argument (R144). -/
def argPixels : PixelArg → List Pixel
  | .sequence pixels => pixels
  | .negative _ => []

/-- The pixel count of a `send` argument (R144, R173). -/
def argCount : PixelArg → Int
  | .sequence pixels => pixels.length
  | .negative k => -((k : Int) + 1)

/-- The state of the handle with number `h`: Closed where no `open` has returned that number, a negative one too
(R141, R144, log 20). -/
def handleState (b : Bus) (h : Int) : Handle :=
  if h < 0 then .closed else b.handles.getD h.toNat .closed

/-- `open`: a new handle, Open; none where the path cannot be opened (R141, R142). -/
def openHandle (b : Bus) (pathOpens : Bool) : Bus :=
  if pathOpens then
    { b with handles := b.handles ++ [.opened], result := some (.opened b.handles.length) }
  else { b with result := some (.failed .configuration) }

/-- The handle with number `h` is Closed from here on (R141); a number that names no handle changes nothing (R143). -/
def releaseHandle (b : Bus) (h : Int) : List Handle :=
  if h < 0 then b.handles else b.handles.set h.toNat .closed

/-- `close`: safe on any handle (R143). -/
def closeHandle (b : Bus) (h : Int) : Bus :=
  { b with handles := releaseHandle b h, result := some .closed }

/-- `send`: rejects a handle that is not Open and a count that is not positive, without touching hardware (R144,
R173); else the host program of R145 begins. -/
def beginSend (b : Bus) (h : Int) (arg : PixelArg) (answer : TransferAnswer) : Bus :=
  if handleState b h = .closed ∨ argCount arg ≤ 0 then { b with result := some (.failed .invalidArgument) }
  else
    { b with
      result := none
      job := some { handle := h, pixels := argPixels arg, answer := answer, stage := .load 0 } }

/-- The effect of a call when no send is in progress. What the configuration calls of `open` answer changes nothing
(R142, R151, log 21). -/
def beginCall (b : Bus) : Call → Bus
  | .openPath pathOpens _configOk => openHandle b pathOpens
  | .closeHandle h => closeHandle b h
  | .sendPixels h arg answer => beginSend b h arg answer

/-- The transaction the send issues next, none when all bytes are collected (R145). -/
def nextWord (j : Job) : Option Htw :=
  match j.stage with
  | .load i => some (wrPmWord i ((pixelBytes j.pixels).getD i 0#8))
  | .setCount => some (wrNregWord (countField j.pixels.length))
  | .start => some startWord
  | .poll => some rdStatusWord
  | .readLen => some rdLenWord
  | .dump len buf => if buf.length < len then some (rdTbWord buf.length) else none

/-- The send goes on at another place. -/
def moveTo (b : Bus) (j : Job) (st : Stage) : Bus := { b with job := some { j with stage := st } }

/-- The send ends with an error and without a transfer (R145, R174). -/
def failSend (b : Bus) (e : CallError) : Bus := { b with job := none, result := some (.failed e) }

/-- After a `POLL` read returned `status`: keep polling in BUSY; map an error code to the caller's error; else go
on to `RD LEN` (R145). -/
def afterPoll (b : Bus) (j : Job) (status : Word) : Bus :=
  if phaseField status = phaseCode .busy then moveTo b j .poll
  else if phaseField status = phaseCode .error ∧ errField status = errCode .capacity then failSend b .allocation
  else if phaseField status = phaseCode .error ∧ errField status = errCode .count then failSend b .invalidArgument
  else moveTo b j .readLen

/-- The send after its transaction was answered with `r` (0 where a write gave no value) (R145). -/
def afterResponse (b : Bus) (j : Job) (r : Word) : Bus :=
  match j.stage with
  | .load i => if i + 1 < (pixelBytes j.pixels).length then moveTo b j (.load (i + 1)) else moveTo b j .setCount
  | .setCount => moveTo b j .start
  | .start => moveTo b j .poll
  | .poll => afterPoll b j r
  | .readLen => moveTo b j (.dump r.toNat [])
  | .dump len buf => moveTo b j (.dump len (buf ++ [lowByte r]))

/-- What `send` returns for the platform's answer to a request of `len` bytes. A transfer of the whole buffer is the
one success; any other report is a failure, surfaced as the platform gave it (R146, R147, R175, log 33). -/
def answerResult (len : Nat) : TransferAnswer → CallResult
  | .transferred n => if n = len then .sent n else .failed (.transfer (.transferred n))
  | .failed diagnostic => .failed (.transfer (.failed diagnostic))

/-- The one transfer of a send: the whole buffer, its length, the clock and the word size (R146, R189); then the
buffer is released and the result returned, without retry (R147, R148). -/
def transferFrame (c : Config) (b : Bus) (j : Job) : Bus :=
  match j.stage with
  | .dump len buf =>
    { b with
      job := none
      result := some (answerResult len j.answer)
      transfers := b.transfers ++
        [{ handle := j.handle, buf := buf, len := len, clockHz := c.spiClockHz, wordBits := c.spiWordBits }] }
  | .load _ => b
  | .setCount => b
  | .start => b
  | .poll => b
  | .readLen => b

end Sys2Proof.Machine
end

