-- ==== Sys2Proof/Machine/Ops.lean ====
section
/-! DEFINITION. The named operations over memories and registers, the recording of model faults and free values,
and the outcomes of a START request. Reporting an error is the block's only form of exception: one shared
operation, `reportError` (60_exceptions.md R153); an error is left by the next START that is not ignored, or by
reset (R159), so there is no separate return. -/

namespace Sys2Proof.Machine

/-- The three outcomes of an operation on this machine. -/
abbrev Result := Host.Outcome State Fault Refusal

/-! ### Memories -/

/-- The byte at an address, none where no value is held (R16, R34, R35). -/
def Memory.read : Memory → Nat → Option Byte
  | [], _ => none
  | (b, v) :: m, a => if a = b then some v else Memory.read m a

/-- `MemWrite`: the byte at one address (R16, R59). -/
def Memory.write : Memory → Nat → Byte → Memory
  | [], a, d => [(a, d)]
  | (b, v) :: m, a, d =>
    if a < b then (a, d) :: (b, v) :: m
    else if a = b then (a, d) :: m
    else (b, v) :: Memory.write m a d

/-- Addresses 0 to `n − 1` all hold the byte 0 (R115). -/
def Memory.zeroFirst (m : Memory) (n : Nat) : Memory :=
  (List.range n).map (fun a => (a, Config.tailByte)) ++ m.filter (fun x => decide (n ≤ x.1))

/-- Addresses 0 to `n − 1` hold no value any more (R178). -/
def Memory.forgetFirst (m : Memory) (n : Nat) : Memory := m.filter (fun x => decide (n ≤ x.1))

/-! ### Responses, free values and faults -/

/-- The response of a host transaction: a read's `RDATA`, none for a write (R74). -/
def respond (s : State) (r : Option Word) : State := { s with rdata := r }

/-- The bytes an internal function operation produces (log 6). -/
def produce (s : State) (bytes : List Byte) : State := { s with out := bytes }

/-- The next free value (R17). -/
def drawnByte (s : State) : Byte := Config.freeByte s.draws

/-- One free value has been drawn. -/
def countDraw (s : State) : State := { s with draws := s.draws + 1 }

/-- `fault <Reason>`: the reason is added to the sticky set (R17, R163). -/
def recordFault (s : State) (f : Fault) : State :=
  if f ∈ s.faults then s else { s with faults := s.faults ++ [f] }

/-- `fault <Reason>` if the phase is BUSY (R135, R137). -/
def faultIfBusy (s : State) (f : Fault) : State :=
  if s.status.phase = .busy then recordFault s f else s

/-- Answer a read of a memory byte: its value zero-extended, or a draw where it has none (R134, R136). -/
def respondByte (s : State) : Option Byte → State
  | some v => respond s (some (zext32 v))
  | none => respond (countDraw s) (some (zext32 (drawnByte s)))

/-! ### Interface registers -/

/-- The value a read of register `i` returns: `CTRL` and reserved indices read 0 (R22 to R30). -/
def readRegister (s : State) (i : Index) : Word :=
  if i = 0#29 then s.nReg
  else if i = 2#29 then statusWord s.status
  else if i = 3#29 then s.len
  else 0#32

/-- Storing to register `i`: only `N_REG` stores; `STATUS`, `LEN` and reserved indices ignore the write
(R22, R24, R29, R30). The START request of a `CTRL` write is `startRequest`. -/
def writeRegister (s : State) (i : Index) (v : Word) : State :=
  if i = 0#29 then { s with nReg := v } else s

/-! ### START -/

/-- START in BUSY: only `OVR` is set (R113). -/
def ignoreStart (s : State) : State := { s with status := statusOverrun s.status }

/-- `report E_<name>` (R17, R114, R153): `PHASE` ERROR, the code, `OVR` and `LEN` 0, nothing else. -/
def reportError (s : State) (e : Err) : State := { s with status := statusError e, len := 0#32 }

/-- Begin a frame of `n` pixels: latch the count, zero the frame's bytes (R115). -/
def acceptStart (s : State) (n : Nat) : State :=
  { s with
    engN := n
    engK := 0
    tb := Memory.zeroFirst s.tb (frameLen s.cfg n)
    len := BitVec.ofNat 32 (frameLen s.cfg n)
    status := statusBusy }

/-- A START request in one atomic step (R112). -/
def startRequest (s : State) : State :=
  match startOutcome s.cfg s.status.phase s.nReg with
  | .ignore => ignoreStart s
  | .reject e => reportError s e
  | .accept n => acceptStart s n

/-! ### The engine -/

/-- The PM byte the engine reads at `a`: a draw where no host write has set it (R116, R162). -/
def loadedByte (s : State) (a : Nat) : Byte :=
  match Memory.read s.pm a with
  | some v => v
  | none => drawnByte s

/-- What reading PM byte `a` records: `UNINIT_PM(a)` and a draw where no host write has set it (R162). -/
def recordLoad (s : State) (a : Nat) : State :=
  match Memory.read s.pm a with
  | some _ => s
  | none => countDraw (recordFault s (.uninitPm a))

/-- The pixel read of pixel `p`: its three bytes, red, green, blue, into `eng.px` (R46, R116). -/
def latchPixel (s : State) (p : Nat) : State :=
  let s1 := recordLoad s (pmIndex p .red)
  let s2 := recordLoad s1 (pmIndex p .green)
  let s3 := recordLoad s2 (pmIndex p .blue)
  { s3 with
    engPx :=
      { r := loadedByte s (pmIndex p .red)
        g := loadedByte s1 (pmIndex p .green)
        b := loadedByte s2 (pmIndex p .blue) } }

/-- The pixel read of an engine step: only at the first byte of a pixel (R116). -/
def latchIfFirst (s : State) : State :=
  if positionOf s.engK = 0 ∧ slotOf s.cfg s.engK = 0 then latchPixel s (pixelIndex s.cfg s.engK) else s

/-- Write the symbol byte at `eng.k` and advance (R116). -/
def writeSymbol (s : State) : State :=
  { s with tb := Memory.write s.tb s.engK (symbolAt s.cfg s.engPx s.engK), engK := s.engK + 1 }

/-- Completion: `PHASE` becomes DONE when `eng.k` has reached `24 × eng.n` (R117). -/
def completeIfLast (s : State) : State :=
  if s.engK = s.cfg.bytesPerLed * s.engN then { s with status := statusDone s.status } else s

/-- One engine step (R116). -/
def advanceEngine (s : State) : State := completeIfLast (writeSymbol (latchIfFirst s))

/-! ### Reset -/

/-- The bytes of a frame that a reset aborts lose their values (R177, R178). -/
def abortFrame (s : State) : State :=
  if s.status.phase = .busy then { s with tb := Memory.forgetFirst s.tb s.len.toNat } else s

/-- The reset values of R42. `eng.px` is left unspecified: three free values (I2, log 10). -/
def applyReset (s : State) : State :=
  { s with
    nReg := 0#32
    len := 0#32
    status := statusIdle
    engK := 0
    engN := 0
    engPx :=
      { r := Config.freeByte s.draws
        g := Config.freeByte (s.draws + 1)
        b := Config.freeByte (s.draws + 2) }
    draws := s.draws + 3 }

end Sys2Proof.Machine
end

