-- ==== Sys2Proof/Machine/Frame.lean ====
section
/-! DEFINITION. The frame operations (42_frame.md R110 to R117) and the reset input (70_reset_and_hazards.md R177).
The three START outcomes and the engine step exist only where they are selected (R112, R116); run elsewhere
they are refused by name (log 8). -/

namespace Sys2Proof.Machine

/-- ENCODE (R110): the frame of a Pixel Sequence; it is not defined for no pixel (R109). -/
def execEncode (pixels : List Pixel) (s : State) : Result :=
  if 1 ≤ pixels.length then .next (produce s (encodePixels s.cfg pixels)) else .refused .emptyFrame

/-- START_IGNORE (R113): selected by a START request in BUSY. -/
def execStartIgnore (s : State) : Result :=
  match startOutcome s.cfg s.status.phase s.nReg with
  | .ignore => .next (ignoreStart s)
  | .reject _ => .refused (.notEnabled "START_IGNORE")
  | .accept _ => .refused (.notEnabled "START_IGNORE")

/-- START_REJECT (R114): selected by a START request outside BUSY with an invalid count. -/
def execStartReject (s : State) : Result :=
  match startOutcome s.cfg s.status.phase s.nReg with
  | .reject e => .next (reportError s e)
  | .ignore => .refused (.notEnabled "START_REJECT")
  | .accept _ => .refused (.notEnabled "START_REJECT")

/-- START_ACCEPT (R115): selected by a START request outside BUSY with a valid count. -/
def execStartAccept (s : State) : Result :=
  match startOutcome s.cfg s.status.phase s.nReg with
  | .accept n => .next (acceptStart s n)
  | .ignore => .refused (.notEnabled "START_ACCEPT")
  | .reject _ => .refused (.notEnabled "START_ACCEPT")

/-- ENGINE_STEP (R116): enabled exactly in BUSY. -/
def execEngineStep (s : State) : Result :=
  if s.status.phase = .busy then .next (advanceEngine s) else .refused (.notEnabled "ENGINE_STEP")

/-- RESET (R177): in any phase, one atomic step. -/
def execReset (s : State) : Result := .next (applyReset (abortFrame s))

end Sys2Proof.Machine
end

