-- ==== Sys2Proof/Machine/HostMem.lean ====
section
/-! DEFINITION. The host transactions of PM, TB and the reserved space (43_host_interface.md R134 to R139).
Every one completes in its step (R123). -/

namespace Sys2Proof.Machine

/-- RD_PM (R134): 0 past the capacity, a draw for a byte never written, else the byte; in every phase. -/
def execRdPm (a : Index) (s : State) : Result :=
  if s.cfg.pmCapacity ≤ a.toNat then .next (respond s (some 0#32))
  else .next (respondByte s (Memory.read s.pm a.toNat))

/-- Store a PM byte; past the capacity, no effect (R60, R135). -/
def storePm (s : State) (a : Nat) (d : Byte) : State :=
  if s.cfg.pmCapacity ≤ a then s else { s with pm := Memory.write s.pm a d }

/-- WR_PM (R135): in BUSY the model fault PM_WRITE_BUSY is recorded, and the write is performed as written. -/
def execWrPm (a : Index) (d : Byte) (s : State) : Result :=
  .next (respond (storePm (faultIfBusy s (.pmWriteBusy a.toNat)) a.toNat d) none)

/-- RD_TB (R136): 0 past the capacity, a draw in BUSY or for a byte without a value, else the byte. -/
def execRdTb (a : Index) (s : State) : Result :=
  if s.cfg.tbCapacity ≤ a.toNat then .next (respond s (some 0#32))
  else if s.status.phase = .busy then .next (respondByte s none)
  else .next (respondByte s (Memory.read s.tb a.toNat))

/-- Store a TB byte; past the capacity, no effect (R60, R137). -/
def storeTb (s : State) (a : Nat) (d : Byte) : State :=
  if s.cfg.tbCapacity ≤ a then s else { s with tb := Memory.write s.tb a d }

/-- WR_TB (R137): in BUSY the model fault TB_WRITE_BUSY is recorded, and the write is performed as written. -/
def execWrTb (a : Index) (d : Byte) (s : State) : Result :=
  .next (respond (storeTb (faultIfBusy s (.tbWriteBusy a.toNat)) a.toNat d) none)

/-- RD_RSVSP (R138): reads 0 whatever the index. -/
def execRdRsvsp (_a : Index) (s : State) : Result := .next (respond s (some 0#32))

/-- WR_RSVSP (R139): no effect. -/
def execWrRsvsp (_a : Index) (_v : Word) (s : State) : Result := .next (respond s none)

end Sys2Proof.Machine
end

