-- ==== Sys2Proof/Machine/HostRegs.lean ====
section
/-! DEFINITION. The host transactions of the register space (43_host_interface.md R124 to R133). Every one
completes in its step (R123). -/

namespace Sys2Proof.Machine

/-- RD_NREG (R124). -/
def execRdNreg (s : State) : Result := .next (respond s (some (readRegister s 0#29)))

/-- WR_NREG (R125): allowed in every phase; the frame in progress keeps its latched count (R122). -/
def execWrNreg (v : Word) (s : State) : Result := .next (respond (writeRegister s 0#29 v) none)

/-- RD_CTRL (R126): 0 in every phase. -/
def execRdCtrl (s : State) : Result := .next (respond s (some (readRegister s 1#29)))

/-- WR_CTRL (R127): a START request if bit 0 is set, else no effect. -/
def execWrCtrl (v : Word) (s : State) : Result :=
  if requestsStart v then .next (respond (startRequest s) none) else .next (respond s none)

/-- RD_STATUS (R128): reading clears nothing. -/
def execRdStatus (s : State) : Result := .next (respond s (some (readRegister s 2#29)))

/-- WR_STATUS (R129): no effect. -/
def execWrStatus (v : Word) (s : State) : Result := .next (respond (writeRegister s 2#29 v) none)

/-- RD_LEN (R130). -/
def execRdLen (s : State) : Result := .next (respond s (some (readRegister s 3#29)))

/-- WR_LEN (R131): no effect. -/
def execWrLen (v : Word) (s : State) : Result := .next (respond (writeRegister s 3#29 v) none)

/-- RD_RSVREG (R132): reads 0. An index below 4 is not this operation's; it is not wrapped or aliased. -/
def execRdRsvreg (_i : Index) (s : State) : Result := .next (respond s (some 0#32))

/-- WR_RSVREG (R133): no effect, and never an alias of registers 0 to 3. -/
def execWrRsvreg (_i : Index) (_v : Word) (s : State) : Result := .next (respond s none)

end Sys2Proof.Machine
end

