-- ==== Sys2Proof/Machine/Symbols.lean ====
section
/-! DEFINITION. The symbol and expansion operations (40_bit_symbol.md R94 to R97, 41_channel_pixel.md R102, R105).
They are parts of the frame map: run alone, one puts its bytes on `State.out` and touches no register of the
block (log 6). Inside the block they run as parts of START_ACCEPT (R115) and ENGINE_STEP (R116). -/

namespace Sys2Proof.Machine

/-- SYM_HIGH (R94): the symbol of the bit 1. -/
def execSymHigh (s : State) : Result := .next (produce s [sym s.cfg true])

/-- SYM_LOW (R95): the symbol of the bit 0. -/
def execSymLow (s : State) : Result := .next (produce s [sym s.cfg false])

/-- The tail byte `k`: `TB[k] = 0x00`, defined (R97). -/
def zeroTail (s : State) (k : Nat) : State := { s with tb := Memory.write s.tb k Config.tailByte }

/-- TAIL_ZERO (R97): `k` lies in the tail of a frame of `n` pixels that the block can hold; elsewhere there is no
such operation (log 7, log 8). -/
def execTailZero (n k : Nat) (s : State) : Result :=
  if decide (1 ≤ n) && decide (n ≤ s.cfg.nMax) && inTail s.cfg n k then
    .next (produce (zeroTail s k) [Config.tailByte])
  else .refused (.notEnabled "TAIL_ZERO")

/-- EXPAND8 (R102). -/
def execExpand8 (v : Byte) (s : State) : Result := .next (produce s (expand8 s.cfg v))

/-- PIXEL24 (R105). -/
def execPixel24 (px : Pixel) (s : State) : Result := .next (produce s (pixel24 s.cfg px))

end Sys2Proof.Machine
end

