-- ==== Sys2Proof/Machine/Dispatch.lean ====
section
/-! DEFINITION. The meaning of every operation of the opcode table, one arm each. -/

namespace Sys2Proof.Machine

def exec (i : Instr) (s : State) : Host.Outcome State Fault Refusal :=
  match i with
  -- register space (R124 to R133)
  | .rdNreg => Sys2Proof.Machine.execRdNreg s
  | .wrNreg v => Sys2Proof.Machine.execWrNreg v s
  | .rdCtrl => Sys2Proof.Machine.execRdCtrl s
  | .wrCtrl v => Sys2Proof.Machine.execWrCtrl v s
  | .rdStatus => Sys2Proof.Machine.execRdStatus s
  | .wrStatus v => Sys2Proof.Machine.execWrStatus v s
  | .rdLen => Sys2Proof.Machine.execRdLen s
  | .wrLen v => Sys2Proof.Machine.execWrLen v s
  | .rdRsvreg i1 => Sys2Proof.Machine.execRdRsvreg i1 s
  | .wrRsvreg i1 v => Sys2Proof.Machine.execWrRsvreg i1 v s
  -- memories and the reserved space (R134 to R139)
  | .rdPm a => Sys2Proof.Machine.execRdPm a s
  | .wrPm a d => Sys2Proof.Machine.execWrPm a d s
  | .rdTb a => Sys2Proof.Machine.execRdTb a s
  | .wrTb a d => Sys2Proof.Machine.execWrTb a d s
  | .rdRsvsp a => Sys2Proof.Machine.execRdRsvsp a s
  | .wrRsvsp a v => Sys2Proof.Machine.execWrRsvsp a v s
  -- symbols and expansion (R94 to R105)
  | .symHigh => Sys2Proof.Machine.execSymHigh s
  | .symLow => Sys2Proof.Machine.execSymLow s
  | .tailZero n k => Sys2Proof.Machine.execTailZero n k s
  | .expand8 v => Sys2Proof.Machine.execExpand8 v s
  | .pixel24 px => Sys2Proof.Machine.execPixel24 px s
  -- frame, engine and reset (R110 to R117, R177)
  | .encode pixels => Sys2Proof.Machine.execEncode pixels s
  | .startIgnore => Sys2Proof.Machine.execStartIgnore s
  | .startReject => Sys2Proof.Machine.execStartReject s
  | .startAccept => Sys2Proof.Machine.execStartAccept s
  | .engineStep => Sys2Proof.Machine.execEngineStep s
  | .reset => Sys2Proof.Machine.execReset s

end Sys2Proof.Machine
end

