-- ==== Sys2Proof/Machine/Agents.lean ====
section
/-! DEFINITION. The agents' turns (00_scope.md R7, 43_host_interface.md R123, R145) and how the inputs of a state
choose between them. The order of the steps is data: any interleaving is some list of inputs (R63, log 3). -/

namespace Sys2Proof.Machine

/-- The host issues a transaction: it is decoded and performed (R123). -/
def hostTurn (w : Htw) (s : State) : Result := exec (decode w) s

/-- The engine's turn: its step in BUSY, no step in any other phase (R28, R116). -/
def engineTurn (s : State) : Result :=
  if s.status.phase = .busy then exec .engineStep s else .next s

/-- The reset input (R177). -/
def resetTurn (s : State) : Result := exec .reset s

/-- The Bus Session moves on with the response its transaction got (R145). -/
def absorbResponse (j : Job) : Result → Result
  | .next t => .next { t with bus := afterResponse t.bus j (t.rdata.getD 0#32) }
  | .fault f => .fault f
  | .refused r => .refused r

/-- The Bus Session's turn: inside a send, its next transaction or, with all bytes collected, its one transfer;
outside a send, nothing (R145, R146). -/
def sessionTurn (s : State) : Result :=
  match s.bus.job with
  | none => .next s
  | some j =>
    match nextWord j with
    | some w => absorbResponse j (hostTurn w s)
    | none => .next { s with bus := transferFrame s.cfg s.bus j }

/-- Who moves when the environment asks for nothing: the engine in BUSY, else the Bus Session (R7, R191, log 4). -/
def unpromptedTurn (s : State) : Result :=
  if s.status.phase = .busy then engineTurn s else sessionTurn s

/-- A call of the Bus Session. While a send is in progress the caller is blocked: the call waits and the machine
goes on (R149, R150, log 20). -/
def callTurn (c : Call) (rest : List Input) (s : State) : Result :=
  if s.bus.job = none then .next { s with inputs := rest, bus := beginCall s.bus c } else unpromptedTurn s

/-- One step: the first input is taken and performed. -/
def takeTurn (s : State) : Result :=
  match s.inputs with
  | [] => unpromptedTurn s
  | .host w :: rest => hostTurn w { s with inputs := rest }
  | .engine :: rest => engineTurn { s with inputs := rest }
  | .reset :: rest => resetTurn { s with inputs := rest }
  | .session :: rest => sessionTurn { s with inputs := rest }
  | .call c :: rest => callTurn c rest s

/-- A transaction word placed as the next input; a row without bits has no word (log 15, log 16). -/
def placeWord (s : State) (nbits w : Nat) : State :=
  if nbits = 0 then s else { s with inputs := .host (tableWord nbits w) :: s.inputs }

end Sys2Proof.Machine
end

