-- ==== Sys2Proof/Machine/Step.lean ====
section
/-! DEFINITION. One step of the machine, and how a transaction is placed as the next one. -/

namespace Sys2Proof.Machine

/-- One atomic step (R58): the turn that the state's inputs choose. -/
def step (s : State) : Host.Outcome State Fault Refusal := takeTurn s

/-- `s` with the transaction `w` as the very next input, so that the next step decodes and performs it
(log 16). -/
def State.withFetchWord (s : State) (nbits w : Nat) : State := placeWord s nbits w

end Sys2Proof.Machine
end

