-- ==== Sys2Proof/Machine/Wire.lean ====
section
/-! DEFINITION. The wire-level consequences of the bytes, derived information only (40_bit_symbol.md R99,
70_reset_and_hazards.md R193, R194, R196). The bit order on the wire is the open parameter of the transmitter
(R54), an argument here; bytes are sent back to back (R190). No rule of the block depends on any of it. -/

namespace Sys2Proof.Machine

/-- `WIRE_BIT_ORDER` (R54). -/
inductive WireBitOrder where
  | msbFirst
  | lsbFirst
deriving DecidableEq, Repr

/-- The eight line levels of one byte, in time order (R54). -/
def wireByte (o : WireBitOrder) (v : Byte) : List Bool :=
  match o with
  | .msbFirst => [bit v 7, bit v 6, bit v 5, bit v 4, bit v 3, bit v 2, bit v 1, bit v 0]
  | .lsbFirst => [bit v 0, bit v 1, bit v 2, bit v 3, bit v 4, bit v 5, bit v 6, bit v 7]

/-- The line levels of bytes sent back to back (R190). -/
def wireLevels (o : WireBitOrder) (bytes : List Byte) : List Bool := bytes.flatMap (wireByte o)

/-- The lengths of the high pulses of a line, in bit times; `run` is the length of the pulse so far. -/
def pulsesFrom (run : Nat) : List Bool → List Nat
  | [] => if run = 0 then [] else [run]
  | true :: l => pulsesFrom (run + 1) l
  | false :: l => if run = 0 then pulsesFrom 0 l else run :: pulsesFrom 0 l

/-- The lengths of the high pulses of a line, in order (R99). -/
def pulses (levels : List Bool) : List Nat := pulsesFrom 0 levels

/-- One SPI bit in picoseconds: 156,250 at 6.4 MHz (R193). -/
def bitTimePs (c : Config) : Nat := 1000000000000 / c.spiClockHz

/-- One SPI word, that is one symbol, in picoseconds (R193). -/
def symbolTimePs (c : Config) : Nat := c.spiWordBits * bitTimePs c

/-- The duration of `n` bytes on the wire in picoseconds (R194, R196). -/
def wireTimePs (c : Config) (nBytes : Nat) : Nat := nBytes * symbolTimePs c

end Sys2Proof.Machine
end

