-- ==== Sys2Proof/Safety.lean ====
section
/-! DEFINITION. What claims about the machine are stated in: the invariant of 10_state.md R40, the host duties of
70_reset_and_hazards.md R184 to R187, what a step leaves unchanged, the pixels a frame is made of and how far the
engine has got with it (42_frame.md R118). -/

namespace Sys2Proof.Machine

/-! ### What stays -/

/-- Every part of the block's state (R20), its configuration and its fault set are the same in both states. -/
def SameBlock (s t : State) : Prop :=
  t.cfg = s.cfg ∧ t.nReg = s.nReg ∧ t.status = s.status ∧ t.len = s.len ∧
  t.engK = s.engK ∧ t.engN = s.engN ∧ t.engPx = s.engPx ∧ t.pm = s.pm ∧ t.tb = s.tb ∧ t.faults = s.faults

/-- The registers, the engine's fields and the configuration are the same in both states (R22 to R33). -/
def SameControl (s t : State) : Prop :=
  t.cfg = s.cfg ∧ t.nReg = s.nReg ∧ t.status = s.status ∧ t.len = s.len ∧
  t.engK = s.engK ∧ t.engN = s.engN ∧ t.engPx = s.engPx

/-- The inputs still to come and the Bus Session are the same in both states. -/
def SameOutside (s t : State) : Prop := t.inputs = s.inputs ∧ t.bus = s.bus

/-- Every byte of a memory outside address `a` reads the same in both. -/
def SameExcept (m m' : Memory) (a : Nat) : Prop := ∀ b, b ≠ a → Memory.read m' b = Memory.read m b

/-- Every byte of a memory at or past address `n` reads the same in both. -/
def SameFrom (m m' : Memory) (n : Nat) : Prop := ∀ b, n ≤ b → Memory.read m' b = Memory.read m b

/-! ### The invariant -/

/-- A `send` that is collecting the frame has at most `LEN` bytes so far (R145, R146). -/
def Job.Ok (j : Job) : Prop :=
  match j.stage with
  | .dump len buf => buf.length ≤ len
  | .load i => i < 3 * j.pixels.length
  | .setCount => True
  | .start => True
  | .poll => True
  | .readLen => True

/-- The clauses of R40 with the canonical form of the memories and the ranges of R11, R31 and R32. -/
structure State.Inv (s : State) : Prop where
  cfg_valid : s.cfg.Valid
  pm_wf : s.pm.wf
  tb_wf : s.tb.wf
  pm_below : s.pm.below s.cfg.pmCapacity
  tb_below : s.tb.below s.cfg.tbCapacity
  faults_nodup : s.faults.Nodup
  /-- R40 (a). -/
  idle : s.status.phase = .idle → s.len = 0#32 ∧ s.status.err = .none ∧ s.engK = 0
  /-- R40 (b). -/
  busy : s.status.phase = .busy → s.status.err = .none ∧ 1 ≤ s.engN ∧ s.engK < 24 * s.engN ∧
    s.len = BitVec.ofNat 32 (24 * s.engN + 40)
  /-- R40 (c). -/
  done : s.status.phase = .done → s.status.err = .none ∧ 1 ≤ s.engN ∧ s.engK = 24 * s.engN ∧
    s.len = BitVec.ofNat 32 (24 * s.engN + 40)
  /-- R40 (d). -/
  error : s.status.phase = .error → s.status.err ≠ .none ∧ s.len = 0#32
  /-- R77: `OVR` is 1 only in BUSY or DONE. -/
  ovr : s.status.ovr = true → s.status.phase = .busy ∨ s.status.phase = .done
  /-- R32. -/
  engN_le : s.engN ≤ s.cfg.nMax
  /-- R31. -/
  engK_le : s.engK ≤ 24 * s.engN
  /-- R115: in BUSY and DONE every byte of the frame has a value. -/
  frame_defined : (s.status.phase = .busy ∨ s.status.phase = .done) →
    ∀ a, a < 24 * s.engN + 40 → (Memory.read s.tb a).isSome = true
  job_ok : ∀ j, s.bus.job = some j → j.Ok
  /-- R141: a send is in progress on an Open handle only. -/
  job_open : ∀ j, s.bus.job = some j → handleState s.bus j.handle = .opened

/-! ### Host duties and START -/

/-- The host duties whose breach the block sees in one operation: no PM write, no TB write and no START in BUSY
(R184, R186, R187). -/
def dutyKept (i : Instr) (s : State) : Bool :=
  match i with
  | .wrPm _ _ => decide (s.status.phase ≠ .busy)
  | .wrTb _ _ => decide (s.status.phase ≠ .busy)
  | .wrCtrl v => !requestsStart v || decide (s.status.phase ≠ .busy)
  | .rdNreg => true
  | .wrNreg _ => true
  | .rdCtrl => true
  | .rdStatus => true
  | .wrStatus _ => true
  | .rdLen => true
  | .wrLen _ => true
  | .rdRsvreg _ => true
  | .wrRsvreg _ _ => true
  | .rdPm _ => true
  | .rdTb _ => true
  | .rdRsvsp _ => true
  | .wrRsvsp _ _ => true
  | .symHigh => true
  | .symLow => true
  | .tailZero _ _ => true
  | .expand8 _ => true
  | .pixel24 _ => true
  | .encode _ => true
  | .startIgnore => decide (s.status.phase ≠ .busy)
  | .startReject => true
  | .startAccept => true
  | .engineStep => true
  | .reset => true

/-- A START request would be accepted with `n` pixels (R112). -/
def StartsFrame (s : State) (n : Nat) : Prop :=
  s.status.phase ≠ .busy ∧ s32 s.nReg = (n : Int) ∧ 1 ≤ n ∧ n ≤ s.cfg.nMax

/-! ### The frame being written -/

/-- Pixel `p` as PM holds it (R46). A byte that no host write has set is 0 here: claims use it only where the bytes
are written, or where no fault is recorded. -/
def pixelAt (m : Memory) (p : Nat) : Pixel :=
  { r := (Memory.read m (pmIndex p .red)).getD 0#8
    g := (Memory.read m (pmIndex p .green)).getD 0#8
    b := (Memory.read m (pmIndex p .blue)).getD 0#8 }

/-- The first `n` pixels as PM holds them (R46, R118). -/
def pixelsIn (m : Memory) (n : Nat) : List Pixel := (List.range n).map (pixelAt m)

/-- Every PM byte of the first `n` pixels has been written by the host (R182). -/
def PixelsWritten (m : Memory) (n : Nat) : Prop := ∀ a, a < 3 * n → (Memory.read m a).isSome = true

/-- How far the engine has got in BUSY (R118): the bytes before `eng.k` are the frame's, the others of the frame are
still 0, and inside a pixel the latch holds that pixel. -/
def FrameSoFar (s : State) : Prop :=
  s.status.phase = .busy →
    (∀ a, a < s.engK → Memory.read s.tb a = some (symbolAt s.cfg (pixelAt s.pm (pixelIndex s.cfg a)) a)) ∧
    (∀ a, s.engK ≤ a → a < 24 * s.engN + 40 → Memory.read s.tb a = some 0x00#8) ∧
    (s.engK % 24 ≠ 0 → s.engPx = pixelAt s.pm (pixelIndex s.cfg s.engK))

/-- TB holds exactly the frame of `pixels` (R110, R118). -/
def HoldsFrame (s : State) (pixels : List Pixel) : Prop :=
  ∀ a, a < 24 * pixels.length + 40 → Memory.read s.tb a = (encodePixels s.cfg pixels)[a]?

/-- `m` engine steps (R116, R119). -/
def runEngine : Nat → State → Result
  | 0, s => .next s
  | m + 1, s =>
    match exec .engineStep s with
    | .next t => runEngine m t
    | .fault f => .fault f
    | .refused r => .refused r

/-- A START request and then the engine steps of its frame (R115, R119). -/
def runFrame (s : State) : Result :=
  match exec (.wrCtrl 1#32) s with
  | .next t => runEngine (24 * t.engN) t
  | .fault f => .fault f
  | .refused r => .refused r

end Sys2Proof.Machine
end

