-- ==== Sys2Proof/Certificates/Slice0/Obligations.lean ====
section
/-! DEFINITION. The statements for the provers, one per definition. Each docstring names the rule of spec/ it
formalises. The spec's constants are fields of a configuration (R8, R21): a statement that writes one as a number takes
`Config.Valid` as a premise, alone or as a clause of `State.Inv`. `SameBlock`, `SameControl`, `SameOutside`,
`SameExcept` and `SameFrom` (Safety.lean) say what stays. -/

open Sys2Proof Sys2Proof.Machine

/-! ### Encoding -/

/-- Decoding the word of a well-formed host transaction gives it back, with every operand at every value (R69 to
R73, R92). -/
def Obligations.DecodeInvertsEncode : Prop :=
  ∀ (c : Config) (i : Instr) (w : Htw), i.wellFormed c = true → encode i = some w → decode w = i

/-- Every 64-bit value is the word of a well-formed host transaction (R69). Its canonical word keeps SP, WE and IDX,
keeps what a write takes of WDATA, and has 0 in the fields that are ignored (R73, R89; which operands an
operation carries is the model's, log 14). -/
def Obligations.EveryWordIsAHostTransaction : Prop :=
  ∀ (c : Config) (w : Htw), (decode w).wellFormed c = true ∧
    ∃ w', encode (decode w) = some w' ∧ decode w' = decode w ∧
      htwSp w' = htwSp w ∧ htwWe w' = htwWe w ∧ htwIdx w' = htwIdx w ∧
      (htwWe w = false → htwWdata w' = 0#32) ∧
      (htwWe w = true → htwSp w = 0#2 ∨ htwSp w = 3#2 → htwWdata w' = htwWdata w) ∧
      (htwWe w = true → htwSp w = 1#2 ∨ htwSp w = 2#2 →
        htwWdata w' = (lowByte (htwWdata w)).setWidth 32)

/-- Words that the spec's vectors write out decode to the transactions they stand for (95_test_vectors.md 2.4). -/
def Obligations.SpecWordsDecode : Prop :=
  decode 0x0000000000000000#64 = .rdNreg ∧
  decode 0x20000000FFFFFFFF#64 = .wrNreg 0xFFFFFFFF#32 ∧
  decode 0x2000000100000001#64 = .wrCtrl 1#32 ∧
  decode 0x0000000300000000#64 = .rdLen ∧
  decode 0x1FFFFFFF00000000#64 = .rdRsvreg 0x1FFFFFFF#29 ∧
  decode 0x60000000000001FF#64 = .wrPm 0#29 0xFF#8 ∧
  decode 0x800005C800000000#64 = .rdTb 1480#29 ∧
  decode 0xE000000100000001#64 = .wrRsvsp 1#29 1#32

/-- The table of transactions (R89, R92): the fields SP, WE, IDX and WDATA of a word select the transaction and give it
its operands, for every value of them; a register index is compared whole, so no reserved index aliases 0 to 3. -/
def Obligations.FieldsSelectTheTransaction : Prop :=
  ∀ (i : Index) (v : Word),
    decode (mkHtw 0#2 false 0#29 v) = .rdNreg ∧ decode (mkHtw 0#2 true 0#29 v) = .wrNreg v ∧
    decode (mkHtw 0#2 false 1#29 v) = .rdCtrl ∧ decode (mkHtw 0#2 true 1#29 v) = .wrCtrl v ∧
    decode (mkHtw 0#2 false 2#29 v) = .rdStatus ∧ decode (mkHtw 0#2 true 2#29 v) = .wrStatus v ∧
    decode (mkHtw 0#2 false 3#29 v) = .rdLen ∧ decode (mkHtw 0#2 true 3#29 v) = .wrLen v ∧
    (4 ≤ i.toNat → decode (mkHtw 0#2 false i v) = .rdRsvreg i ∧ decode (mkHtw 0#2 true i v) = .wrRsvreg i v) ∧
    decode (mkHtw 1#2 false i v) = .rdPm i ∧ decode (mkHtw 1#2 true i v) = .wrPm i (v.setWidth 8) ∧
    decode (mkHtw 2#2 false i v) = .rdTb i ∧ decode (mkHtw 2#2 true i v) = .wrTb i (v.setWidth 8) ∧
    decode (mkHtw 3#2 false i v) = .rdRsvsp i ∧ decode (mkHtw 3#2 true i v) = .wrRsvsp i v

/-- What a WDATA field may hold without effect: all of it in a read, bits [31:8] in a byte write (R73, R85 (d)). -/
def Obligations.IgnoredWriteDataDoesNotDecode : Prop :=
  ∀ (sp : BitVec 2) (i : Index) (v v' : Word),
    decode (mkHtw sp false i v) = decode (mkHtw sp false i v') ∧
    (sp = 1#2 ∨ sp = 2#2 → lowByte v = lowByte v' → decode (mkHtw sp true i v) = decode (mkHtw sp true i v'))

/-! ### Steps -/

/-- A step whose next input is a host transaction performs the decoded transaction and consumes the input (R123);
in particular a transaction placed by `withFetchWord` is the very next one. -/
def Obligations.HostInputRunsDecodedTransaction : Prop :=
  (∀ (s : State) (w : Htw) (rest : List Input),
    step { s with inputs := .host w :: rest } = exec (decode w) { s with inputs := rest }) ∧
  (∀ (s : State) (w : Nat), step (s.withFetchWord 64 w) = exec (decode (BitVec.ofNat 64 w)) s)

/-- The steps of the engine and of the reset input (R7, R28, R177): the engine's turn is ENGINE_STEP in BUSY and
no step elsewhere; the reset input is RESET; with nothing asked for, the engine moves in BUSY, and outside BUSY
and outside a send the state stays (log 3, log 4). -/
def Obligations.EngineAndResetTurns : Prop :=
  ∀ (s : State) (rest : List Input),
    (s.status.phase = .busy →
      step { s with inputs := .engine :: rest } = exec .engineStep { s with inputs := rest }) ∧
    (s.status.phase ≠ .busy → step { s with inputs := .engine :: rest } = .next { s with inputs := rest }) ∧
    step { s with inputs := .reset :: rest } = exec .reset { s with inputs := rest } ∧
    (s.inputs = [] → s.status.phase = .busy → step s = exec .engineStep s) ∧
    (s.inputs = [] → s.status.phase ≠ .busy → s.bus.job = none → step s = .next s)

/-- A turn of the Bus Session inside a send performs the decoded transaction of its next word and moves the send
on by the response; with all bytes collected it makes its transfer (R145, R146). -/
def Obligations.SessionTurnRunsDecodedTransaction : Prop :=
  ∀ (s : State) (j : Job) (rest : List Input), s.bus.job = some j →
    (∀ w t, nextWord j = some w → exec (decode w) { s with inputs := rest } = .next t →
      step { s with inputs := .session :: rest } =
        .next { t with bus := afterResponse t.bus j (t.rdata.getD 0#32) }) ∧
    (nextWord j = none →
      step { s with inputs := .session :: rest } =
        .next { s with inputs := rest, bus := transferFrame s.cfg s.bus j })

/-- Every host transaction completes in its step, in every state: no trap, no stall (R123). -/
def Obligations.EveryHostTransactionCompletes : Prop :=
  ∀ (w : Htw) (s : State), ∃ t, exec (decode w) s = .next t

/-- Every state has a next state of the model. That no operation traps or stalls is the spec's (R123, R153, R191). That
a step with nothing to do answers a next state too is the model's choice (log 4): an engine turn outside BUSY, a Bus
Session turn outside a send, and, outside BUSY and outside a send, a step with nothing asked for. There the spec has no
step (R28: the engine takes none). -/
def Obligations.StepAlwaysHasANextState : Prop := ∀ s : State, ∃ t, step s = .next t

/-! ### Invariants -/

/-- Every step keeps the invariant of R40, with the canonical form of the memories and the ranges of the engine's
fields. The clauses on the canonical form and on the send in progress, which is on an Open handle (R141), are the
model's own (log 11, log 17, log 20). -/
def Obligations.StepKeepsInvariant : Prop :=
  ∀ s t : State, s.Inv → step s = .next t → t.Inv

/-- The invariant holds at power-on, for every configuration the spec allows (R43). -/
def Obligations.PowerOnMeetsInvariant : Prop :=
  (∀ c : Config, c.Valid → (State.powerOn c).Inv) ∧ State.reset.Inv

/-- What power-on leaves (R42, R43): registers 0, IDLE, engine counters 0, every byte of PM and TB unwritten, no
fault. -/
def Obligations.PowerOnState : Prop :=
  ∀ c : Config, c.Valid → ∀ s : State, s = State.powerOn c →
    readRegister s 0#29 = 0x00000000#32 ∧ readRegister s 1#29 = 0x00000000#32 ∧
    readRegister s 2#29 = 0x00000000#32 ∧ readRegister s 3#29 = 0x00000000#32 ∧
    s.status.phase = .idle ∧ s.status.err = .none ∧ s.status.ovr = false ∧
    s.engK = 0 ∧ s.engN = 0 ∧ s.faults = [] ∧
    ∀ a, Memory.read s.pm a = none ∧ Memory.read s.tb a = none

/-- The values `STATUS` has, with their phase, error code and overrun; no other occurs (R77). -/
def Obligations.StatusHasOneOfSevenValues : Prop :=
  ∀ s : State, s.Inv →
    (readRegister s 2#29, s.status.phase, s.status.err, s.status.ovr) ∈
      [(0x00000000#32, Phase.idle, Err.none, false),
       (0x00000001#32, Phase.busy, Err.none, false),
       (0x00000101#32, Phase.busy, Err.none, true),
       (0x00000002#32, Phase.done, Err.none, false),
       (0x00000102#32, Phase.done, Err.none, true),
       (0x00000013#32, Phase.error, Err.count, false),
       (0x00000023#32, Phase.error, Err.capacity, false)]

/-- Faults are sticky: no step removes a reason, a reset neither (R163). -/
def Obligations.FaultsAreSticky : Prop :=
  ∀ s t : State, step s = .next t → ∀ f ∈ s.faults, f ∈ t.faults

/-- Where model faults come from (R160 to R163): a PM write in BUSY, a TB write in BUSY, an engine step that reads an
unwritten PM byte at the first byte of a pixel; nothing else adds one. -/
def Obligations.FaultsComeFromBrokenDuties : Prop :=
  ∀ (i : Instr) (s t : State) (f : Fault), s.cfg.Valid → exec i s = .next t → f ∈ t.faults →
    f ∈ s.faults ∨
    (∃ a d, i = .wrPm a d ∧ s.status.phase = .busy ∧ f = .pmWriteBusy a.toNat) ∨
    (∃ a d, i = .wrTb a d ∧ s.status.phase = .busy ∧ f = .tbWriteBusy a.toNat) ∨
    (∃ ch, i = .engineStep ∧ s.status.phase = .busy ∧ s.engK % 24 = 0 ∧
      Memory.read s.pm (pmIndex (s.engK / 24) ch) = none ∧ f = .uninitPm (pmIndex (s.engK / 24) ch))

/-- While the host keeps its duties no fault but UNINIT_PM is added and `OVR` is not set (R184, R186, R187, R160,
R161, R113). -/
def Obligations.KeptDutiesAddOnlyUninitPm : Prop :=
  ∀ (i : Instr) (s t : State), dutyKept i s = true → exec i s = .next t →
    (∀ f ∈ t.faults, f ∈ s.faults ∨ ∃ a, f = .uninitPm a) ∧ (t.status.ovr = true → s.status.ovr = true)

/-- No step changes the build-time parameters (R21, R67). -/
def Obligations.ConfigurationNeverChanges : Prop :=
  ∀ s t : State, step s = .next t → t.cfg = s.cfg

/-- No operation of the block touches the inputs still to come or the Bus Session. The spec places the Bus Session
outside the block and gives the block no handle (R140, R141). That RESET leaves the handles, the send, the transfers
and the inputs as they are is the model's reading (log 32). That the inputs are a field of the state at all is the
model's (log 3). -/
def Obligations.OperationsLeaveTheOutsideAlone : Prop :=
  ∀ (i : Instr) (s t : State), exec i s = .next t → SameOutside s t

/-- Which operations change the phase, and how (R28): BUSY is left by the engine step that writes the last pixel byte
and by reset only; the other phases are left by a START request and by reset only. -/
def Obligations.PhaseTransitions : Prop :=
  ∀ (i : Instr) (s t : State), s.cfg.Valid → exec i s = .next t → t.status.phase ≠ s.status.phase →
    (i = .reset ∧ t.status.phase = .idle) ∨
    (i = .engineStep ∧ s.status.phase = .busy ∧ t.status.phase = .done ∧ s.engK + 1 = 24 * s.engN) ∨
    (((∃ v, i = .wrCtrl v ∧ v.getLsbD 0 = true) ∨ i = .startAccept) ∧ s.status.phase ≠ .busy ∧
      t.status.phase = .busy) ∨
    (((∃ v, i = .wrCtrl v ∧ v.getLsbD 0 = true) ∨ i = .startReject) ∧ s.status.phase ≠ .busy ∧
      t.status.phase = .error)

/-- In BUSY nothing but reset changes the latched count or `LEN` (R22, R122). -/
def Obligations.CountIsLatchedInBusy : Prop :=
  ∀ (i : Instr) (s t : State), s.status.phase = .busy → i ≠ .reset → exec i s = .next t →
    t.engN = s.engN ∧ t.len = s.len

/-! ### Register transactions -/

/-- The reads of the register space return the register and change nothing of the block (R124, R126, R130, R132). -/
def Obligations.RegisterReadsReturnTheRegister : Prop :=
  ∀ s : State,
    (∃ t, exec .rdNreg s = .next t ∧ t.rdata = some s.nReg ∧ SameBlock s t ∧ SameOutside s t) ∧
    (∃ t, exec .rdCtrl s = .next t ∧ t.rdata = some 0x00000000#32 ∧ SameBlock s t ∧ SameOutside s t) ∧
    (∃ t, exec .rdLen s = .next t ∧ t.rdata = some s.len ∧ SameBlock s t ∧ SameOutside s t) ∧
    (∀ i : Index, ∃ t, exec (.rdRsvreg i) s = .next t ∧ t.rdata = some 0x00000000#32 ∧
      SameBlock s t ∧ SameOutside s t)

/-- RD_STATUS returns the fields at their places with 0 between them, and clears nothing (R24, R128). -/
def Obligations.RdStatusReturnsTheFields : Prop :=
  ∀ s : State, ∃ t w, exec .rdStatus s = .next t ∧ t.rdata = some w ∧ SameBlock s t ∧ SameOutside s t ∧
    w.extractLsb' 0 2 =
      (match s.status.phase with | .idle => 0#2 | .busy => 1#2 | .done => 2#2 | .error => 3#2) ∧
    w.extractLsb' 2 2 = 0#2 ∧
    w.extractLsb' 4 4 = (match s.status.err with | .none => 0#4 | .count => 1#4 | .capacity => 2#4) ∧
    w.getLsbD 8 = s.status.ovr ∧ w.extractLsb' 9 23 = 0#23

/-- WR_NREG stores the value in every phase and touches nothing else of the block (R125, R122). -/
def Obligations.WrNregStoresTheCount : Prop :=
  ∀ (v : Word) (s : State), ∃ t, exec (.wrNreg v) s = .next t ∧ t.nReg = v ∧
    SameBlock { s with nReg := v } t ∧ SameOutside s t

/-- Writes to STATUS, LEN, a reserved register index or the reserved space, and a read of the reserved space, change
nothing of the block; the read returns 0 (R129, R131, R133, R138, R139). -/
def Obligations.ReservedAndReadOnlyAccessesHaveNoEffect : Prop :=
  ∀ s : State,
    (∀ v : Word, ∃ t, exec (.wrStatus v) s = .next t ∧ SameBlock s t ∧ SameOutside s t) ∧
    (∀ v : Word, ∃ t, exec (.wrLen v) s = .next t ∧ SameBlock s t ∧ SameOutside s t) ∧
    (∀ (i : Index) (v : Word), ∃ t, exec (.wrRsvreg i v) s = .next t ∧ SameBlock s t ∧ SameOutside s t) ∧
    (∀ a : Index, ∃ t, exec (.rdRsvsp a) s = .next t ∧ t.rdata = some 0x00000000#32 ∧
      SameBlock s t ∧ SameOutside s t) ∧
    (∀ (a : Index) (v : Word), ∃ t, exec (.wrRsvsp a v) s = .next t ∧ SameBlock s t ∧ SameOutside s t)

/-- Every host read is free of side effects, and a memory or reserved read has zeros above bit 7 (R59, R74). -/
def Obligations.HostReadsHaveNoSideEffects : Prop :=
  ∀ (w : Htw) (s t : State), htwWe w = false → exec (decode w) s = .next t →
    SameBlock s t ∧ SameOutside s t ∧
    ∃ r, t.rdata = some r ∧ (htwSp w ≠ 0#2 → r.extractLsb' 8 24 = 0#24)

/-! ### START -/

/-- The dispatch of a START request, on unbounded integers, first case that applies; a write without bit 0 is no
request; the capacity test is `N > N_MAX` (R112). -/
def Obligations.StartRequestDispatch : Prop :=
  ∀ (v : Word) (s : State), s.cfg.Valid →
    (v.getLsbD 0 = false → ∃ t, exec (.wrCtrl v) s = .next t ∧ SameBlock s t ∧ SameOutside s t) ∧
    (v.getLsbD 0 = true → s.status.phase = .busy →
      ∃ t, exec (.wrCtrl v) s = .next t ∧ SameBlock (ignoreStart s) t ∧ exec .startIgnore s = .next (ignoreStart s)) ∧
    (v.getLsbD 0 = true → s.status.phase ≠ .busy → s.nReg.toInt ≤ 0 →
      ∃ t, exec (.wrCtrl v) s = .next t ∧ SameBlock (reportError s .count) t ∧
        exec .startReject s = .next (reportError s .count)) ∧
    (v.getLsbD 0 = true → s.status.phase ≠ .busy → 0 < s.nReg.toInt →
      24 * s.nReg.toInt + 40 > (s.cfg.tbCapacity : Int) →
      ∃ t, exec (.wrCtrl v) s = .next t ∧ SameBlock (reportError s .capacity) t ∧
        exec .startReject s = .next (reportError s .capacity)) ∧
    (v.getLsbD 0 = true → s.status.phase ≠ .busy → 0 < s.nReg.toInt →
      24 * s.nReg.toInt + 40 ≤ (s.cfg.tbCapacity : Int) →
      ∃ t, exec (.wrCtrl v) s = .next t ∧ SameBlock (acceptStart s s.nReg.toInt.toNat) t ∧
        exec .startAccept s = .next (acceptStart s s.nReg.toInt.toNat)) ∧
    (24 * s.nReg.toInt + 40 > (s.cfg.tbCapacity : Int) ↔ s.nReg.toInt > (s.cfg.nMax : Int))

/-- A START in BUSY sets `OVR` and changes nothing else (R113). -/
def Obligations.StartIgnoreSetsOverrunOnly : Prop :=
  ∀ s : State, s.status.phase = .busy →
    ∃ t, exec .startIgnore s = .next t ∧ t.status.ovr = true ∧ t.status.phase = s.status.phase ∧
      t.status.err = s.status.err ∧ t.nReg = s.nReg ∧ t.len = s.len ∧ t.engK = s.engK ∧ t.engN = s.engN ∧
      t.engPx = s.engPx ∧ t.pm = s.pm ∧ t.tb = s.tb ∧ t.faults = s.faults ∧ SameOutside s t

/-- A rejected START leaves ERROR with the code, `OVR` and `LEN` 0, and changes nothing else (R114). -/
def Obligations.StartRejectReportsTheError : Prop :=
  ∀ (s : State) (e : Err), s.cfg.Valid → s.status.phase ≠ .busy →
    (s.nReg.toInt ≤ 0 ∧ e = .count ∨
      0 < s.nReg.toInt ∧ 24 * s.nReg.toInt + 40 > (s.cfg.tbCapacity : Int) ∧ e = .capacity) →
    ∃ t, exec .startReject s = .next t ∧ t.status.phase = .error ∧ t.status.err = e ∧ t.status.ovr = false ∧
      t.len = 0#32 ∧ t.nReg = s.nReg ∧ t.engK = s.engK ∧ t.engN = s.engN ∧ t.engPx = s.engPx ∧
      t.pm = s.pm ∧ t.tb = s.tb ∧ t.faults = s.faults ∧ SameOutside s t

/-- An accepted START latches the count, zeroes the frame's bytes and no other, and leaves BUSY with `LEN = 24 n + 40`
(R115). -/
def Obligations.StartAcceptBeginsTheFrame : Prop :=
  ∀ (s : State) (n : Nat), s.cfg.Valid → StartsFrame s n →
    ∃ t, exec .startAccept s = .next t ∧ t.engN = n ∧ t.engK = 0 ∧
      (∀ a, a < 24 * n + 40 → Memory.read t.tb a = some 0x00#8) ∧ SameFrom s.tb t.tb (24 * n + 40) ∧
      t.len.toNat = 24 * n + 40 ∧ t.status.err = .none ∧ t.status.ovr = false ∧ t.status.phase = .busy ∧
      t.pm = s.pm ∧ t.nReg = s.nReg ∧ t.engPx = s.engPx ∧ t.faults = s.faults ∧ SameOutside s t

/-- A rejected START and an ignored START write no byte of PM or TB, whichever operation asked for it, and a
rejection leaves `LEN` 0 (R121). -/
def Obligations.UnacceptedStartWritesNoMemory : Prop :=
  ∀ (i : Instr) (s t : State), (∃ v, i = .wrCtrl v) ∨ i = .startReject ∨ i = .startIgnore →
    exec i s = .next t → (s.status.phase = .busy ∨ t.status.phase ≠ .busy) →
      t.pm = s.pm ∧ t.tb = s.tb ∧
      (s.status.phase ≠ .busy → (∃ v, i = .wrCtrl v ∧ v.getLsbD 0 = true) ∨ i = .startReject → t.len = 0#32)

/-- The internal operations stop by name where their selecting condition does not hold (R97, R109, R112, R116; the
refusal is the model's, log 8). -/
def Obligations.InternalOperationsAreSelected : Prop :=
  ∀ s : State,
    (s.status.phase ≠ .busy →
      exec .startIgnore s = .refused (.notEnabled "START_IGNORE") ∧
      exec .engineStep s = .refused (.notEnabled "ENGINE_STEP")) ∧
    (s.status.phase = .busy →
      exec .startReject s = .refused (.notEnabled "START_REJECT") ∧
      exec .startAccept s = .refused (.notEnabled "START_ACCEPT")) ∧
    (∀ n, s.cfg.Valid → StartsFrame s n → exec .startReject s = .refused (.notEnabled "START_REJECT")) ∧
    (s.status.phase ≠ .busy → s.cfg.Valid → s.nReg.toInt ≤ 0 ∨ s.nReg.toInt > (s.cfg.nMax : Int) →
      exec .startAccept s = .refused (.notEnabled "START_ACCEPT")) ∧
    (∀ n k, s.cfg.Valid → n = 0 ∨ s.cfg.nMax < n ∨ k < 24 * n ∨ 24 * n + 40 ≤ k →
      exec (.tailZero n k) s = .refused (.notEnabled "TAIL_ZERO")) ∧
    exec (.encode []) s = .refused .emptyFrame

/-! ### Memory transactions -/

/-- RD_PM: 0 past the capacity, the byte zero-extended where it is written, some byte zero-extended where it is not;
in every phase, and nothing of the block changes (R134). -/
def Obligations.RdPmReturnsTheByte : Prop :=
  ∀ (a : Index) (s : State), ∃ t, exec (.rdPm a) s = .next t ∧ SameBlock s t ∧ SameOutside s t ∧
    (s.cfg.pmCapacity ≤ a.toNat → t.rdata = some 0x00000000#32) ∧
    (a.toNat < s.cfg.pmCapacity → Memory.read s.pm a.toNat = none → ∃ v, t.rdata = some (zext32 v)) ∧
    (∀ v, a.toNat < s.cfg.pmCapacity → Memory.read s.pm a.toNat = some v → t.rdata = some (zext32 v))

/-- WR_PM stores one byte inside the capacity and none past it, records PM_WRITE_BUSY exactly in BUSY, and changes
nothing else (R135). Two of its clauses are the model's: that a write past the capacity records the fault in BUSY too
(log 26), and that a write in BUSY stores its byte, where the spec leaves the hardware's result unspecified (log 12). -/
def Obligations.WrPmStoresTheByte : Prop :=
  ∀ (a : Index) (d : Byte) (s : State), ∃ t, exec (.wrPm a d) s = .next t ∧
    (a.toNat < s.cfg.pmCapacity → Memory.read t.pm a.toNat = some d ∧ SameExcept s.pm t.pm a.toNat) ∧
    (s.cfg.pmCapacity ≤ a.toNat → t.pm = s.pm) ∧
    (∀ f, f ∈ t.faults ↔ f ∈ s.faults ∨ (s.status.phase = .busy ∧ f = .pmWriteBusy a.toNat)) ∧
    t.tb = s.tb ∧ SameControl s t ∧ SameOutside s t

/-- RD_TB: 0 past the capacity, some byte in BUSY or where none is defined, else the byte, zero-extended; not a fault,
and nothing of the block changes (R136). -/
def Obligations.RdTbReturnsTheByte : Prop :=
  ∀ (a : Index) (s : State), ∃ t, exec (.rdTb a) s = .next t ∧ SameBlock s t ∧ SameOutside s t ∧
    (s.cfg.tbCapacity ≤ a.toNat → t.rdata = some 0x00000000#32) ∧
    (a.toNat < s.cfg.tbCapacity → s.status.phase = .busy ∨ Memory.read s.tb a.toNat = none →
      ∃ v, t.rdata = some (zext32 v)) ∧
    (∀ v, a.toNat < s.cfg.tbCapacity → s.status.phase ≠ .busy → Memory.read s.tb a.toNat = some v →
      t.rdata = some (zext32 v))

/-- WR_TB stores one byte inside the capacity and none past it, records TB_WRITE_BUSY exactly in BUSY, and changes
nothing else (R137). Two of its clauses are the model's: that a write past the capacity records the fault in BUSY too
(log 26), and that a write in BUSY stores its byte, where the spec leaves the hardware's result unspecified (log 12). -/
def Obligations.WrTbStoresTheByte : Prop :=
  ∀ (a : Index) (d : Byte) (s : State), ∃ t, exec (.wrTb a d) s = .next t ∧
    (a.toNat < s.cfg.tbCapacity → Memory.read t.tb a.toNat = some d ∧ SameExcept s.tb t.tb a.toNat) ∧
    (s.cfg.tbCapacity ≤ a.toNat → t.tb = s.tb) ∧
    (∀ f, f ∈ t.faults ↔ f ∈ s.faults ∨ (s.status.phase = .busy ∧ f = .tbWriteBusy a.toNat)) ∧
    t.pm = s.pm ∧ SameControl s t ∧ SameOutside s t

/-! ### The frame as a function -/

/-- The symbol of a bit, and back: two distinct non-zero bytes, and no other byte is a symbol (R96, R98). -/
def Obligations.SymbolsDecodeBack : Prop :=
  ∀ c : Config, c.Valid → sym c true = 0x1F#8 ∧ sym c false = 0x03#8 ∧
    ∀ v : Byte, (∀ b, unsym c v = some b ↔ v = sym c b) ∧ (unsym c v = none ↔ v ≠ 0x1F#8 ∧ v ≠ 0x03#8)

/-- `expand8`: eight symbols, element `i` that of bit `7 − i` (R102, R103). -/
def Obligations.ExpandIsMostSignificantBitFirst : Prop :=
  ∀ (c : Config) (v : Byte), (expand8 c v).length = 8 ∧
    ∀ i, i < 8 → (expand8 c v)[i]? = some (sym c (v.getLsbD (7 - i)))

/-- `pixel24`: 24 symbols, green, red, blue, each most significant bit first (R105, R107). -/
def Obligations.PixelIsGreenRedBlue : Prop :=
  ∀ (c : Config) (px : Pixel), c.Valid → (pixel24 c px).length = 24 ∧
    (∀ i, i < 8 →
      (pixel24 c px)[i]? = some (sym c (px.g.getLsbD (7 - i))) ∧
      (pixel24 c px)[8 + i]? = some (sym c (px.r.getLsbD (7 - i))) ∧
      (pixel24 c px)[16 + i]? = some (sym c (px.b.getLsbD (7 - i)))) ∧
    ∀ x ∈ pixel24 c px, x = 0x1F#8 ∨ x = 0x03#8

/-- `encode`: length `24 N + 40`, element `24 p + j` is element `j` of pixel `p`, the last 40 bytes are 0 (R110). -/
def Obligations.FrameElements : Prop :=
  ∀ (c : Config) (pixels : List Pixel), c.Valid →
    (encodePixels c pixels).length = 24 * pixels.length + 40 ∧
    (∀ p j (h : p < pixels.length), j < 24 → (encodePixels c pixels)[24 * p + j]? = (pixel24 c pixels[p])[j]?) ∧
    (∀ i, i < 40 → (encodePixels c pixels)[24 * pixels.length + i]? = some 0x00#8)

/-- The index decode of a frame (R81): pixel `k div 24`, slot `(k mod 24) div 8`, position `k mod 8`; conversely
`k = 24 p + 8 c + i`. -/
def Obligations.FrameIndexDecode : Prop :=
  ∀ (c : Config) (pixels : List Pixel) (k : Nat), c.Valid →
    (∀ h : k / 24 < pixels.length,
      (encodePixels c pixels)[k]? =
        some (sym c (bit (match k % 24 / 8 with
          | 0 => pixels[k / 24].g | 1 => pixels[k / 24].r | _ => pixels[k / 24].b) (7 - k % 8)))) ∧
    (24 * pixels.length ≤ k → k < 24 * pixels.length + 40 → (encodePixels c pixels)[k]? = some 0x00#8) ∧
    k = 24 * (k / 24) + 8 * (k % 24 / 8) + k % 8

/-- No frame holds a byte other than 0x1F, 0x03 and 0x00; 0x00 never occurs in the pixel region (R84). -/
def Obligations.FrameAlphabetIsClosed : Prop :=
  ∀ (c : Config) (pixels : List Pixel) (k : Nat) (x : Byte), c.Valid → (encodePixels c pixels)[k]? = some x →
    (k < 24 * pixels.length → x = 0x1F#8 ∨ x = 0x03#8) ∧ (24 * pixels.length ≤ k → x = 0x00#8)

/-- The expansions lose nothing: distinct channels, pixels and Pixel Sequences give distinct bytes (R102, R105, R98). -/
def Obligations.FrameDeterminesThePixels : Prop :=
  ∀ c : Config, c.Valid →
  (∀ v v' : Byte, expand8 c v = expand8 c v' → v = v') ∧
  (∀ px px' : Pixel, pixel24 c px = pixel24 c px' → px = px') ∧
  (∀ ps ps' : List Pixel, encodePixels c ps = encodePixels c ps' → ps = ps')

/-- The symbol and expansion operations and ENCODE run alone: they produce their rule's bytes and touch nothing of the
block (R94, R95, R102, R105, R110; that the bytes go to `State.out` is the model's, log 6). -/
def Obligations.FunctionOperationsProduceTheirBytes : Prop :=
  ∀ s : State, s.cfg.Valid →
    (∃ t, exec .symHigh s = .next t ∧ t.out = [0x1F#8] ∧ SameBlock s t ∧ SameOutside s t) ∧
    (∃ t, exec .symLow s = .next t ∧ t.out = [0x03#8] ∧ SameBlock s t ∧ SameOutside s t) ∧
    (∀ v, ∃ t, exec (.expand8 v) s = .next t ∧
      t.out = [7, 6, 5, 4, 3, 2, 1, 0].map (fun j => if v.getLsbD j then 0x1F#8 else 0x03#8) ∧
      SameBlock s t ∧ SameOutside s t) ∧
    (∀ px, ∃ t, exec (.pixel24 px) s = .next t ∧
      t.out = [px.g, px.r, px.b].flatMap
        (fun v => [7, 6, 5, 4, 3, 2, 1, 0].map (fun j => if v.getLsbD j then 0x1F#8 else 0x03#8)) ∧
      SameBlock s t ∧ SameOutside s t) ∧
    (∀ pixels, 1 ≤ pixels.length → ∃ t, exec (.encode pixels) s = .next t ∧
      t.out = encodePixels s.cfg pixels ∧ t.out.length = 24 * pixels.length + 40 ∧ SameBlock s t ∧ SameOutside s t)

/-- TAIL_ZERO leaves 0 in its tail byte and touches no other byte and no register (R97; run alone it is the model's,
log 7). -/
def Obligations.TailZeroClearsItsByte : Prop :=
  ∀ (n k : Nat) (s : State), s.cfg.Valid → 1 ≤ n → n ≤ s.cfg.nMax → 24 * n ≤ k → k < 24 * n + 40 →
    ∃ t, exec (.tailZero n k) s = .next t ∧ Memory.read t.tb k = some 0x00#8 ∧ SameExcept s.tb t.tb k ∧
      t.pm = s.pm ∧ t.faults = s.faults ∧ SameControl s t ∧ SameOutside s t

/-! ### The engine -/

/-- The engine step in BUSY writes the symbol of bit `7 − i` of slot `c` of the latched pixel at `TB[k]` and no other
byte, reads the pixel at its first byte only, records UNINIT_PM for exactly the unwritten bytes it reads,
advances `eng.k` by 1 and sets DONE at `24 n` (R116). -/
def Obligations.EngineStepWritesOneSymbol : Prop :=
  ∀ s : State, s.cfg.Valid → s.status.phase = .busy → ∃ t, exec .engineStep s = .next t ∧
    Memory.read t.tb s.engK =
      some (sym s.cfg (bit (match s.engK % 24 / 8 with
        | 0 => t.engPx.g | 1 => t.engPx.r | _ => t.engPx.b) (7 - s.engK % 8))) ∧
    SameExcept s.tb t.tb s.engK ∧ t.engK = s.engK + 1 ∧
    (s.engK % 24 ≠ 0 → t.engPx = s.engPx ∧ t.faults = s.faults) ∧
    (s.engK % 24 = 0 →
      (∀ v, Memory.read s.pm (3 * (s.engK / 24)) = some v → t.engPx.r = v) ∧
      (∀ v, Memory.read s.pm (3 * (s.engK / 24) + 1) = some v → t.engPx.g = v) ∧
      (∀ v, Memory.read s.pm (3 * (s.engK / 24) + 2) = some v → t.engPx.b = v) ∧
      ∀ f, f ∈ t.faults ↔ f ∈ s.faults ∨
        ∃ a, 3 * (s.engK / 24) ≤ a ∧ a < 3 * (s.engK / 24) + 3 ∧ Memory.read s.pm a = none ∧ f = .uninitPm a) ∧
    (t.status.phase = .done ↔ s.engK + 1 = 24 * s.engN) ∧ (t.status.phase = .busy ↔ s.engK + 1 ≠ 24 * s.engN) ∧
    t.status.err = s.status.err ∧ t.status.ovr = s.status.ovr ∧ t.nReg = s.nReg ∧ t.len = s.len ∧
    t.engN = s.engN ∧ t.pm = s.pm ∧ SameOutside s t

/-- Every step keeps the engine's progress as R118 describes it, for every interleaving of the host's transactions
that records no fault. -/
def Obligations.StepKeepsFrameProgress : Prop :=
  ∀ s t : State, s.cfg.Valid → FrameSoFar s → step s = .next t → t.faults = [] → FrameSoFar t

/-- The step that completes a frame leaves in TB exactly `encode` of the pixels in PM, with `LEN` its length, for
every interleaving that records no fault (R117, R118). -/
def Obligations.CompletionLeavesTheEncodedFrame : Prop :=
  ∀ s t : State, s.Inv → FrameSoFar s → s.status.phase = .busy → step s = .next t → t.faults = [] →
    t.status.phase = .done →
    HoldsFrame t (pixelsIn t.pm t.engN) ∧ t.len.toNat = (encodePixels t.cfg (pixelsIn t.pm t.engN)).length

/-- An accepted START followed by the engine's `24 n` steps ends in DONE with `encode` of the pixels in TB; PM, the
faults and TB past the frame stay (R118, R119). -/
def Obligations.AcceptedFrameIsEncoded : Prop :=
  ∀ (s : State) (n : Nat), s.cfg.Valid → StartsFrame s n → PixelsWritten s.pm n →
    ∃ t, runFrame s = .next t ∧ t.status.phase = .done ∧ t.status.err = .none ∧ t.status.ovr = false ∧
      t.len.toNat = 24 * n + 40 ∧ t.engN = n ∧ t.engK = 24 * n ∧ HoldsFrame t (pixelsIn s.pm n) ∧
      t.pm = s.pm ∧ t.faults = s.faults ∧ SameFrom s.tb t.tb (24 * n + 40)

/-- A finished frame stays readable (R64, R117, R136, R175): outside BUSY a host read of each of its bytes returns that
byte, and no operation that leaves the block outside BUSY changes the frame but a host write to TB (and TAIL_ZERO
run alone, log 7). -/
def Obligations.FinishedFrameStaysReadable : Prop :=
  ∀ (s : State) (pixels : List Pixel), s.cfg.Valid → s.status.phase ≠ .busy → HoldsFrame s pixels →
    (∀ a : Index, a.toNat < 24 * pixels.length + 40 → a.toNat < s.cfg.tbCapacity →
      ∃ t, exec (.rdTb a) s = .next t ∧ t.rdata = (encodePixels s.cfg pixels)[a.toNat]?.map zext32) ∧
    (∀ (i : Instr) (t : State), exec i s = .next t → (∀ a d, i ≠ .wrTb a d) → (∀ n k, i ≠ .tailZero n k) →
      t.status.phase ≠ .busy → HoldsFrame t pixels)

/-- Two accepted STARTs with the same count and the same PM bytes leave the same frame bytes and the same `LEN`,
whatever else the states hold (R44, R120). -/
def Obligations.FrameIsIndependentOfHistory : Prop :=
  ∀ (s s' t t' : State) (n : Nat), s.cfg.Valid → s'.cfg.Valid → StartsFrame s n → StartsFrame s' n →
    PixelsWritten s.pm n → (∀ a, a < 3 * n → Memory.read s'.pm a = Memory.read s.pm a) →
    runFrame s = .next t → runFrame s' = .next t' →
    t'.len = t.len ∧ ∀ a, a < 24 * n + 40 → Memory.read t'.tb a = Memory.read t.tb a

/-- The engine needs no host: from BUSY with nothing asked for, it reaches DONE after its remaining steps and not
before (R119, R191). -/
def Obligations.EngineFinishesOnItsOwn : Prop :=
  ∀ s : State, s.Inv → s.status.phase = .busy → s.inputs = [] →
    (∃ t, Host.Core.run core (24 * s.engN - s.engK) s = .next t ∧ State.status t = { s.status with phase := .done }) ∧
    ∀ m, m < 24 * s.engN - s.engK → ∃ t, Host.Core.run core m s = .next t ∧ State.status t = s.status

/-! ### Reset -/

/-- RESET in any phase (R177): registers and engine counters at their reset values, PM and faults as before, TB as
before except that a reset in BUSY leaves the frame's bytes without a value. That the Bus Session and the inputs stay
(`SameOutside`) is the model's reading (log 32), which the rule does not say. -/
def Obligations.ResetRestoresResetValues : Prop :=
  ∀ s : State, ∃ t, exec .reset s = .next t ∧
    t.nReg = 0#32 ∧ t.len = 0#32 ∧ t.status.phase = .idle ∧ t.status.err = .none ∧ t.status.ovr = false ∧
    t.engK = 0 ∧ t.engN = 0 ∧ t.pm = s.pm ∧ t.faults = s.faults ∧ SameOutside s t ∧
    (s.status.phase ≠ .busy → t.tb = s.tb) ∧
    (s.status.phase = .busy →
      (∀ a, a < s.len.toNat → Memory.read t.tb a = none) ∧ SameFrom s.tb t.tb s.len.toNat)

/-! ### The Bus Session -/

/-- The calls of the Bus Session outside a send (R141 to R144, R172, R173). `open` on a path that opens gives a new
handle, Open; on another path it returns the configuration error and gives none. `close` leaves its handle Closed and
is safe on any number. `send` on a handle that is not Open, or with a count that is not positive, negative ones too, is
rejected with no transaction and no transfer. The model's own: that the configuration calls' answers change nothing
(log 21), that handles are numbers and a failed `open` gives none (log 20), and that an argument is a Pixel Sequence,
an empty one too, or a negative count (log 18). -/
def Obligations.SessionCalls : Prop :=
  ∀ (s : State) (rest : List Input), s.bus.job = none →
    (∀ cfgOk, step { s with inputs := .call (.openPath true cfgOk) :: rest } =
      .next { s with
        inputs := rest
        bus := { s.bus with
          handles := s.bus.handles ++ [.opened], result := some (.opened s.bus.handles.length) } }) ∧
    (∀ cfgOk, step { s with inputs := .call (.openPath false cfgOk) :: rest } =
      .next { s with inputs := rest, bus := { s.bus with result := some (.failed .configuration) } }) ∧
    (∀ h, ∃ b, step { s with inputs := .call (.closeHandle h) :: rest } = .next { s with inputs := rest, bus := b } ∧
      b.result = some .closed ∧ b.job = none ∧ b.transfers = s.bus.transfers ∧ handleState b h = .closed ∧
      ∀ h', h' ≠ h → handleState b h' = handleState s.bus h') ∧
    (∀ h arg answer, handleState s.bus h = .closed ∨ argCount arg ≤ 0 →
      step { s with inputs := .call (.sendPixels h arg answer) :: rest } =
        .next { s with inputs := rest, bus := { s.bus with result := some (.failed .invalidArgument) } }) ∧
    (∀ pixels, argCount (.sequence pixels) = pixels.length) ∧ (∀ k : Nat, argCount (.negative k) = -(k + 1 : Int))

/-- The life of a handle over any step (R141): a Closed handle that `open` has given stays Closed for good; an Open one
leaves Open only by a `close` of it; a handle comes to be Open only as the one that an `open` gives. That handles are
numbers, given in turn and never given twice, is the model's (log 20). -/
def Obligations.ClosedHandlesStayClosed : Prop :=
  ∀ s t : State, step s = .next t →
    (∀ h : Nat, h < s.bus.handles.length → handleState s.bus h = .closed →
      h < t.bus.handles.length ∧ handleState t.bus h = .closed) ∧
    (∀ h : Int, handleState s.bus h = .opened → handleState t.bus h = .closed →
      s.bus.job = none ∧ ∃ rest, s.inputs = .call (.closeHandle h) :: rest) ∧
    (∀ h : Int, handleState s.bus h = .closed → handleState t.bus h = .opened →
      h = s.bus.handles.length ∧ t.bus.result = some (.opened s.bus.handles.length) ∧
      ∃ cfgOk rest, s.inputs = .call (.openPath true cfgOk) :: rest)

/-- A transfer request ends a send: a step makes at most one, only inside a send on an Open handle, of the whole
collected buffer, with its length, 6,400,000 Hz and 8 bits, and the send is then over, the block untouched (R146, R148,
R175, R189). Its result is the byte count where the platform reports exactly the buffer's length, and else the transfer
error with what the platform reported (R147, R175); that any other count is a failure is deduced from R146 (log 33). -/
def Obligations.OneWholeTransferEndsASend : Prop :=
  ∀ s t : State, s.Inv → step s = .next t →
    t.bus.transfers = s.bus.transfers ∨
    ∃ x j, s.bus.job = some j ∧ j.stage = .dump x.len x.buf ∧ t.bus.job = none ∧
      t.bus.transfers = s.bus.transfers ++ [x] ∧ x.handle = j.handle ∧ handleState s.bus x.handle = .opened ∧
      x.buf.length = x.len ∧ x.clockHz = 6400000 ∧ x.wordBits = 8 ∧ SameBlock s t ∧
      t.bus.result = some (match j.answer with
        | .transferred m => if m = x.len then .sent m else .failed (.transfer (.transferred m))
        | .failed diagnostic => .failed (.transfer (.failed diagnostic)))

/-- A send of `N` pixels, 1 ≤ N ≤ N_MAX, on an Open handle outside BUSY makes exactly one transfer, of the encoded
frame of its pixels, and returns `24 N + 40` where the platform reports that all of it was transferred, and else the
transfer error with what the platform reported (R145 to R147, R175; an unequal count: log 33). No fault is recorded.
With nothing else asked for it takes 51 N + 46 steps of the model (log 4). -/
def Obligations.SendTransfersTheEncodedFrame : Prop :=
  ∀ (s : State) (h : Int) (pixels : List Pixel) (answer : TransferAnswer),
    s.Inv → s.status.phase ≠ .busy → handleState s.bus h = .opened → s.bus.job = none →
    s.inputs = [.call (.sendPixels h (.sequence pixels) answer)] →
    1 ≤ pixels.length → pixels.length ≤ s.cfg.nMax →
    ∃ t : State, Host.Core.run core (51 * pixels.length + 46) s = .next t ∧
      t.bus.job = none ∧ t.faults = s.faults ∧ t.status.phase = .done ∧ t.bus.handles = s.bus.handles ∧
      t.bus.transfers = s.bus.transfers ++
        [{ handle := h, buf := encodePixels s.cfg pixels, len := 24 * pixels.length + 40,
           clockHz := 6400000, wordBits := 8 }] ∧
      t.bus.result = some (match answer with
        | .transferred m => if m = 24 * pixels.length + 40 then .sent m else .failed (.transfer (.transferred m))
        | .failed diagnostic => .failed (.transfer (.failed diagnostic)))

/-- A send of more than N_MAX pixels on an Open handle outside BUSY returns the allocation failure, makes no transfer
and changes no TB byte (R156, R174). For 2^31 pixels and more the spec gives no answer: there the result rests on the
model's count field (log 19). With nothing else asked for it takes 3 N + 4 steps of the model (log 4). -/
def Obligations.OversizedSendReturnsAllocationFailure : Prop :=
  ∀ (s : State) (h : Int) (pixels : List Pixel) (answer : TransferAnswer),
    s.Inv → s.status.phase ≠ .busy → handleState s.bus h = .opened → s.bus.job = none →
    s.inputs = [.call (.sendPixels h (.sequence pixels) answer)] → s.cfg.nMax < pixels.length →
    ∃ t : State, Host.Core.run core (3 * pixels.length + 4) s = .next t ∧
      t.bus.job = none ∧ t.bus.result = some (.failed .allocation) ∧ t.bus.transfers = s.bus.transfers ∧
      t.tb = s.tb ∧ t.status.phase = .error ∧ t.status.err = .capacity ∧ t.len = 0#32

/-! ### The wire -/

/-- The pulse shape of the symbols, for either wire bit order and bytes sent back to back: one run of set bits at the
least significant end; one pulse of 5 or 2 bit times a symbol, never merging; 320 low bit times of tail (R99). -/
def Obligations.SymbolPulsesNeverMerge : Prop :=
  ∀ c : Config, c.Valid →
  (∀ j, j < 8 → (sym c true).getLsbD j = decide (j < 5) ∧ (sym c false).getLsbD j = decide (j < 2)) ∧
  ∀ (o : WireBitOrder) (bits : List Bool),
    pulses (wireLevels o (bits.map (sym c))) = bits.map (fun b => if b then 5 else 2) ∧
    wireLevels o (List.replicate 40 0x00#8) = List.replicate 320 false

/-- The derived durations in picoseconds: SPI bit, symbol, tail, and the frame of `N` pixels (R193, R194, R196). -/
def Obligations.WireDurations : Prop :=
  ∀ c : Config, c.Valid →
    bitTimePs c = 156250 ∧ symbolTimePs c = 1250000 ∧ 5 * bitTimePs c = 781250 ∧ 2 * bitTimePs c = 312500 ∧
    wireTimePs c 40 = 50000000 ∧
    ∀ pixels : List Pixel,
      wireTimePs c (encodePixels c pixels).length = (24 * pixels.length + 40) * 1250000
end

