-- ==== Sys2Proof/Laws/Bus.lean ====
section
/-! SUPPORT. What each operation of the Bus Session leaves in its fields, and what it does to every handle. -/

namespace Sys2Proof.Machine

/-! ### Inside a send -/

@[simp] theorem moveTo_handles (b : Bus) (j : Job) (st : Stage) : (moveTo b j st).handles = b.handles := rfl
@[simp] theorem moveTo_job (b : Bus) (j : Job) (st : Stage) :
    (moveTo b j st).job = some { j with stage := st } := rfl
@[simp] theorem moveTo_result (b : Bus) (j : Job) (st : Stage) : (moveTo b j st).result = b.result := rfl
@[simp] theorem moveTo_transfers (b : Bus) (j : Job) (st : Stage) : (moveTo b j st).transfers = b.transfers := rfl

@[simp] theorem failSend_handles (b : Bus) (e : CallError) : (failSend b e).handles = b.handles := rfl
@[simp] theorem failSend_job (b : Bus) (e : CallError) : (failSend b e).job = none := rfl
@[simp] theorem failSend_result (b : Bus) (e : CallError) : (failSend b e).result = some (.failed e) := rfl
@[simp] theorem failSend_transfers (b : Bus) (e : CallError) : (failSend b e).transfers = b.transfers := rfl

/-- After a `POLL` read the send goes on at another place or ends with an error (R145). -/
theorem afterPoll_cases (b : Bus) (j : Job) (w : Word) :
    (∃ st, afterPoll b j w = moveTo b j st) ∨ ∃ e, afterPoll b j w = failSend b e := by
  unfold afterPoll
  split
  · exact .inl ⟨_, rfl⟩
  · split
    · exact .inr ⟨_, rfl⟩
    · split
      · exact .inr ⟨_, rfl⟩
      · exact .inl ⟨_, rfl⟩

/-- After any response the send goes on at another place or ends with an error; it makes no transfer (R145). -/
theorem afterResponse_cases (b : Bus) (j : Job) (r : Word) :
    (∃ st, afterResponse b j r = moveTo b j st) ∨ ∃ e, afterResponse b j r = failSend b e := by
  unfold afterResponse
  split
  · split <;> exact .inl ⟨_, rfl⟩
  · exact .inl ⟨_, rfl⟩
  · exact .inl ⟨_, rfl⟩
  · exact afterPoll_cases b j r
  · exact .inl ⟨_, rfl⟩
  · exact .inl ⟨_, rfl⟩

@[simp] theorem afterResponse_handles (b : Bus) (j : Job) (r : Word) : (afterResponse b j r).handles = b.handles := by
  rcases afterResponse_cases b j r with ⟨st, h⟩ | ⟨e, h⟩ <;> rw [h] <;> rfl

@[simp] theorem afterResponse_transfers (b : Bus) (j : Job) (r : Word) :
    (afterResponse b j r).transfers = b.transfers := by
  rcases afterResponse_cases b j r with ⟨st, h⟩ | ⟨e, h⟩ <;> rw [h] <;> rfl

@[simp] theorem transferFrame_handles (c : Config) (b : Bus) (j : Job) :
    (transferFrame c b j).handles = b.handles := by
  unfold transferFrame
  split <;> rfl

/-- Only the whole buffer counts as sent (R146, R147). -/
theorem answerResult_sent_iff (len n : Nat) (a : TransferAnswer) :
    answerResult len a = .sent n ↔ a = .transferred len ∧ n = len := by
  cases a with
  | transferred m =>
    by_cases h : m = len
    · simp [answerResult, h, eq_comm]
    · simp [answerResult, h]
  | failed d => simp [answerResult]

/-! ### Calls -/

/-- A call that is no `send` leaves the running send alone; a `send` begins one or is rejected (R144). -/
theorem beginCall_transfers (b : Bus) (c : Call) : (beginCall b c).transfers = b.transfers := by
  cases c <;> simp only [beginCall, openHandle, closeHandle, beginSend] <;> (try split) <;> rfl

/-- `send` on an Open handle with at least one pixel begins the host program of R145. -/
theorem beginSend_begins {b : Bus} {h : Int} {pixels : List Pixel} (answer : TransferAnswer)
    (ho : handleState b h = .opened) (hn : 1 ≤ pixels.length) :
    beginSend b h (.sequence pixels) answer =
      { b with
        result := none
        job := some { handle := h, pixels := pixels, answer := answer, stage := .load 0 } } := by
  have hc : ¬ (handleState b h = .closed ∨ argCount (.sequence pixels) ≤ 0) := by
    rw [ho, argCount]
    simp only [reduceCtorEq, false_or]
    omega
  rw [beginSend, if_neg hc, argPixels]

/-- `send` on a handle that is not Open, or with a count that is not positive, is rejected (R144, R173). -/
theorem beginSend_rejects {b : Bus} {h : Int} {arg : PixelArg} (answer : TransferAnswer)
    (hr : handleState b h = .closed ∨ argCount arg ≤ 0) :
    beginSend b h arg answer = { b with result := some (.failed .invalidArgument) } := by
  rw [beginSend, if_pos hr]

@[simp] theorem beginSend_handles (b : Bus) (h : Int) (arg : PixelArg) (a : TransferAnswer) :
    (beginSend b h arg a).handles = b.handles := by
  unfold beginSend
  split <;> rfl

/-! ### Handles -/

/-- The state of a handle depends on the handles alone. -/
theorem handleState_congr {b b' : Bus} (h : b'.handles = b.handles) (i : Int) : handleState b' i = handleState b i := by
  rw [handleState, handleState, h]

/-- A number that is not negative is looked up among the handles returned so far. -/
theorem handleState_natCast (b : Bus) (n : Nat) : handleState b n = b.handles[n]?.getD .closed := by
  rw [handleState, if_neg (by omega), Int.toNat_natCast, List.getD_eq_getElem?_getD]

theorem handleState_negative (b : Bus) {h : Int} (hn : h < 0) : handleState b h = .closed := by
  rw [handleState, if_pos hn]

theorem releaseHandle_natCast (b : Bus) (n : Nat) : releaseHandle b n = b.handles.set n .closed := by
  rw [releaseHandle, if_neg (by omega), Int.toNat_natCast]

/-- What `open` does to every handle: the next number becomes Open (R141, R142). -/
theorem handleState_openHandle (b : Bus) (ok : Bool) (i : Int) :
    handleState (openHandle b ok) i =
      if ok = true ∧ i = b.handles.length then .opened else handleState b i := by
  cases ok with
  | false => simp [openHandle, handleState]
  | true =>
    by_cases hi : i < 0
    · have : ¬ i = b.handles.length := by omega
      simp [handleState_negative _ hi, this]
    · obtain ⟨n, rfl⟩ := Int.eq_ofNat_of_zero_le (show 0 ≤ i by omega)
      rw [handleState_natCast, handleState_natCast]
      rcases Nat.lt_trichotomy n b.handles.length with h | h | h
      · have : ¬ n = b.handles.length := by omega
        simp [openHandle, List.getElem?_append_left h, this]
      · subst h
        simp [openHandle]
      · have h' : ¬ n = b.handles.length := by omega
        have e1 : b.handles[n]? = none := List.getElem?_eq_none (by omega)
        have e2 : (b.handles ++ [Handle.opened])[n]? = none := List.getElem?_eq_none (by simp; omega)
        simp [openHandle, e1, e2, h']

/-- What `close` does to every handle: the named one is Closed after it (R141, R143). -/
theorem handleState_closeHandle (b : Bus) (h i : Int) :
    handleState (closeHandle b h) i = if i = h then .closed else handleState b i := by
  by_cases hi : i < 0
  · simp [handleState_negative _ hi]
  · obtain ⟨n, rfl⟩ := Int.eq_ofNat_of_zero_le (show 0 ≤ i by omega)
    rw [handleState_natCast, handleState_natCast, closeHandle]
    by_cases hh : h < 0
    · have : ¬ (n : Int) = h := by omega
      simp [releaseHandle, hh, this]
    · obtain ⟨m, rfl⟩ := Int.eq_ofNat_of_zero_le (show 0 ≤ h by omega)
      rw [releaseHandle_natCast, List.getElem?_set]
      by_cases e : m = n
      · by_cases hl : m < b.handles.length <;> simp [e, e ▸ hl]
      · have e' : ¬ n = m := fun x => e x.symm
        simp [e, e']

/-- No call removes a handle's number (R141). -/
theorem beginCall_handles_length (b : Bus) (c : Call) : b.handles.length ≤ (beginCall b c).handles.length := by
  cases c with
  | openPath ok x => cases ok <;> simp [beginCall, openHandle]
  | closeHandle h =>
    simp only [beginCall, closeHandle, releaseHandle]
    split <;> simp
  | sendPixels h arg a => simp [beginCall]

end Sys2Proof.Machine
end

