-- ==== Sys2Proof/Laws/Config.lean ====
section
/-! SUPPORT. What a configuration the spec allows fixes: the value of each field and of the frame map's parts, so that
no later proof unfolds a configuration. -/

namespace Sys2Proof

/-! ### The fields (R8 to R12) -/

theorem Config.build_valid {cap : Nat} (h : 64 ≤ cap) (h' : cap ≤ 2 ^ 29) : (Config.build cap).Valid :=
  ⟨rfl, h, h'⟩

theorem Config.Valid.highSym {c : Config} (h : c.Valid) : c.highSym = 0x1F#8 := by rw [← h.1]; rfl
theorem Config.Valid.lowSym {c : Config} (h : c.Valid) : c.lowSym = 0x03#8 := by rw [← h.1]; rfl
theorem Config.Valid.resetBytes {c : Config} (h : c.Valid) : c.resetBytes = 40 := by rw [← h.1]; rfl
theorem Config.Valid.bitsPerLed {c : Config} (h : c.Valid) : c.bitsPerLed = 24 := by rw [← h.1]; rfl
theorem Config.Valid.bytesPerLed {c : Config} (h : c.Valid) : c.bytesPerLed = 24 := by rw [← h.1]; rfl
theorem Config.Valid.spiWordBits {c : Config} (h : c.Valid) : c.spiWordBits = 8 := by rw [← h.1]; rfl
theorem Config.Valid.spiClockHz {c : Config} (h : c.Valid) : c.spiClockHz = 6400000 := by rw [← h.1]; rfl

theorem Config.Valid.channel {c : Config} (h : c.Valid) (slot : Slot) :
    c.channel slot = (Config.build 0).channel slot := by rw [← h.1]; rfl

theorem Config.Valid.nMax {c : Config} (h : c.Valid) : c.nMax = (c.tbCapacity - 40) / 24 := by
  rw [Config.nMax, h.resetBytes, h.bytesPerLed]

namespace Machine

/-! ### The frame map's parts (R81 to R83, R96, R97, R104, R108) -/

theorem sym_of_valid {c : Config} (h : c.Valid) (b : Bool) : sym c b = if b then 0x1F#8 else 0x03#8 := by
  rw [sym, h.highSym, h.lowSym]

theorem chan_of_valid {c : Config} (h : c.Valid) (px : Pixel) :
    chan c px 0 = px.g ∧ chan c px 1 = px.r ∧ chan c px 2 = px.b := by
  simp only [chan, h.channel]
  exact ⟨rfl, rfl, rfl⟩

theorem frameLen_of_valid {c : Config} (h : c.Valid) (n : Nat) : frameLen c n = 24 * n + 40 := by
  rw [frameLen, h.bytesPerLed, h.resetBytes]

theorem pixelIndex_of_valid {c : Config} (h : c.Valid) (k : Nat) : pixelIndex c k = k / 24 := by
  rw [pixelIndex, h.bytesPerLed]

/-- The tail of a frame of `n` pixels (R97). -/
theorem inTail_iff {c : Config} (h : c.Valid) (n k : Nat) :
    inTail c n k = true ↔ 24 * n ≤ k ∧ k < 24 * n + 40 := by
  rw [inTail, frameLen_of_valid h, h.bytesPerLed, Bool.and_eq_true]
  exact and_congr decide_eq_true_iff decide_eq_true_iff

/-- The engine is at the first byte of a pixel exactly where `k mod 24 = 0` (R81, R116). -/
theorem first_byte_iff {c : Config} (h : c.Valid) (k : Nat) : (positionOf k = 0 ∧ slotOf c k = 0) ↔ k % 24 = 0 := by
  simp only [positionOf, slotOf, h.bytesPerLed, Fin.ext_iff, Fin.ofNat, Fin.val_zero]
  omega

/-- The byte at TB index `k`, written out (R81, R104, R116). -/
theorem symbolAt_of_valid {c : Config} (h : c.Valid) (px : Pixel) (k : Nat) :
    symbolAt c px k =
      sym c (bit (match k % 24 / 8 with | 0 => px.g | 1 => px.r | _ => px.b) (7 - k % 8)) := by
  obtain ⟨h0, h1, h2⟩ := chan_of_valid h px
  have hk : k % 24 / 8 = 0 ∨ k % 24 / 8 = 1 ∨ k % 24 / 8 = 2 := by omega
  simp only [symbolAt, positionOf, slotOf, h.bytesPerLed]
  rcases hk with hk | hk | hk <;> rw [hk]
  · rw [show Fin.ofNat 3 0 = 0 from rfl, h0]
    rfl
  · rw [show Fin.ofNat 3 1 = 1 from rfl, h1]
    rfl
  · rw [show Fin.ofNat 3 2 = 2 from rfl, h2]
    rfl

end Machine

end Sys2Proof
end

