-- ==== Sys2Proof/Laws/Decode.lean ====
section
/-! SUPPORT. The fields of a built host transaction word (R69): each field read back is the field put in. -/

namespace Sys2Proof

@[simp] theorem htwSp_mkHtw (sp : BitVec 2) (we : Bool) (i : Index) (v : Word) : htwSp (mkHtw sp we i v) = sp := by
  apply BitVec.eq_of_getLsbD_eq
  intro k hk
  simp only [htwSp, mkHtw, BitVec.getLsbD_extractLsb', BitVec.getLsbD_append, hk, decide_true, Bool.true_and]
  have h1 : ¬ 62 + k < 32 := by omega
  have h2 : ¬ 62 + k - 32 < 29 := by omega
  have h3 : ¬ 62 + k - 32 - 29 < 1 := by omega
  have h4 : 62 + k - 32 - 29 - 1 = k := by omega
  simp [h1, h2, h3, h4]

@[simp] theorem htwWe_mkHtw (sp : BitVec 2) (we : Bool) (i : Index) (v : Word) : htwWe (mkHtw sp we i v) = we := by
  simp only [htwWe, mkHtw, BitVec.getLsbD_append]
  simp

@[simp] theorem htwIdx_mkHtw (sp : BitVec 2) (we : Bool) (i : Index) (v : Word) : htwIdx (mkHtw sp we i v) = i := by
  apply BitVec.eq_of_getLsbD_eq
  intro k hk
  simp only [htwIdx, mkHtw, BitVec.getLsbD_extractLsb', BitVec.getLsbD_append, hk, decide_true, Bool.true_and]
  have h1 : ¬ 32 + k < 32 := by omega
  have h2 : 32 + k - 32 = k := by omega
  simp [h1, h2, hk]

@[simp] theorem htwWdata_mkHtw (sp : BitVec 2) (we : Bool) (i : Index) (v : Word) :
    htwWdata (mkHtw sp we i v) = v := by
  apply BitVec.eq_of_getLsbD_eq
  intro k hk
  simp only [htwWdata, mkHtw, BitVec.getLsbD_extractLsb', BitVec.getLsbD_append]
  simp [hk]

@[simp] theorem lowByte_setWidth (d : Byte) : lowByte (d.setWidth 32) = d := by
  apply BitVec.eq_of_getLsbD_eq
  intro k hk
  have h : k < 32 := by omega
  simp [lowByte, hk, h]

@[simp] theorem lowByte_zext32 (d : Byte) : lowByte (Machine.zext32 d) = d := lowByte_setWidth d

/-- `decode` of a built word depends on its fields only. -/
theorem decode_mkHtw (sp : BitVec 2) (we : Bool) (i : Index) (v : Word) :
    decode (mkHtw sp we i v) =
      match spaceOf sp, we with
      | .reg, false => decodeRegRead i
      | .reg, true => decodeRegWrite i v
      | .pm, false => .rdPm i
      | .pm, true => .wrPm i (lowByte v)
      | .tb, false => .rdTb i
      | .tb, true => .wrTb i (lowByte v)
      | .rsv, false => .rdRsvsp i
      | .rsv, true => .wrRsvsp i v := by
  cases h : spaceOf sp <;> cases we <;> simp [decode, h]

/-- A word is the one built from its fields (R69): no bit lies outside them. -/
theorem mkHtw_fields (w : Htw) : mkHtw (htwSp w) (htwWe w) (htwIdx w) (htwWdata w) = w := by
  apply BitVec.eq_of_getLsbD_eq
  intro k hk
  simp only [mkHtw, htwSp, htwWe, htwIdx, htwWdata, BitVec.getLsbD_append, BitVec.getLsbD_extractLsb']
  by_cases h1 : k < 32
  · simp [h1]
  · by_cases h2 : k - 32 < 29
    · have h3 : 32 + (k - 32) = k := by omega
      simp [h1, h2, h3]
    · by_cases h4 : k - 32 - 29 < 1
      · have h5 : k = 61 := by omega
        subst h5
        simp
      · have h6 : 62 + (k - 32 - 29 - 1) = k := by omega
        have h7 : k - 32 - 29 - 1 < 2 := by omega
        simp [h1, h2, h4, h6, h7]

end Sys2Proof
end

