-- ==== Sys2Proof/Laws/Memory.lean ====
section
/-! SUPPORT. The laws of the byte memories: a read after a write, that a write leaves every other byte alone
(R59), and that every memory operation keeps the canonical form and the bound. -/

namespace Sys2Proof.Machine

@[simp] theorem Memory.read_nil (a : Nat) : Memory.read [] a = none := rfl

theorem Memory.read_write_same (m : Memory) (a : Nat) (d : Byte) :
    Memory.read (Memory.write m a d) a = some d := by
  induction m with
  | nil => simp [Memory.write, Memory.read]
  | cons x m ih =>
    obtain ⟨b, v⟩ := x
    simp only [Memory.write]
    split
    · simp [Memory.read]
    · split
      · simp [Memory.read]
      · simp [Memory.read, *]

theorem Memory.read_write_other (m : Memory) {a b : Nat} (d : Byte) (h : b ≠ a) :
    Memory.read (Memory.write m a d) b = Memory.read m b := by
  induction m with
  | nil => simp [Memory.write, Memory.read, h]
  | cons x m ih =>
    obtain ⟨c, v⟩ := x
    simp only [Memory.write]
    split
    · simp [Memory.read, h]
    · split
      · subst_vars
        simp [Memory.read, h]
      · simp [Memory.read, ih]

theorem Memory.read_write (m : Memory) (a b : Nat) (d : Byte) :
    Memory.read (Memory.write m a d) b = if b = a then some d else Memory.read m b := by
  split
  · subst_vars
    exact Memory.read_write_same m _ d
  · exact Memory.read_write_other m d ‹_›

theorem Memory.mem_write {m : Memory} {a : Nat} {d : Byte} {x : Host.Cell} (h : x ∈ Memory.write m a d) :
    x = (a, d) ∨ x ∈ m := by
  induction m with
  | nil => simpa [Memory.write] using h
  | cons y m ih =>
    obtain ⟨b, v⟩ := y
    simp only [Memory.write] at h
    split at h
    · simpa using h
    · split at h
      · rcases List.mem_cons.1 h with h | h
        · exact .inl h
        · exact .inr (List.mem_cons_of_mem _ h)
      · rcases List.mem_cons.1 h with h | h
        · exact .inr (h ▸ List.mem_cons_self)
        · exact (ih h).imp_right (List.mem_cons_of_mem _)

theorem Memory.write_wf {m : Memory} (a : Nat) (d : Byte) (h : m.wf) : (Memory.write m a d).wf := by
  induction m with
  | nil => simp [Memory.write]
  | cons y m ih =>
    obtain ⟨b, v⟩ := y
    obtain ⟨hlt, hm⟩ := List.pairwise_cons.1 h
    simp only [Memory.write]
    split
    · refine List.pairwise_cons.2 ⟨fun x hx => ?_, h⟩
      rcases List.mem_cons.1 hx with rfl | hx
      · assumption
      · exact lt_trans ‹_› (hlt x hx)
    · split
      · subst_vars
        exact List.pairwise_cons.2 ⟨hlt, hm⟩
      · refine List.pairwise_cons.2 ⟨fun x hx => ?_, ih hm⟩
        rcases Memory.mem_write hx with rfl | hx
        · simp only
          omega
        · exact hlt x hx

theorem Memory.write_below {m : Memory} {a cap : Nat} (d : Byte) (ha : a < cap) (h : m.below cap) :
    (Memory.write m a d).below cap := by
  intro x hx
  rcases Memory.mem_write hx with rfl | hx
  · exact ha
  · exact h x hx

theorem Memory.read_append (m m' : Memory) (a : Nat) :
    Memory.read (m ++ m') a = (Memory.read m a).or (Memory.read m' a) := by
  induction m with
  | nil => simp
  | cons x m ih =>
    obtain ⟨b, v⟩ := x
    by_cases h : a = b <;> simp [Memory.read, h, ih]

theorem Memory.read_forgetFirst (m : Memory) (n a : Nat) :
    Memory.read (Memory.forgetFirst m n) a = if a < n then none else Memory.read m a := by
  induction m with
  | nil => simp [Memory.forgetFirst]
  | cons x m ih =>
    obtain ⟨b, v⟩ := x
    simp only [Memory.forgetFirst] at ih ⊢
    by_cases hb : n ≤ b
    · by_cases h : a = b
      · simp [hb, Memory.read, h]
      · simp [hb, Memory.read, h, ih]
    · by_cases h : a = b
      · subst h
        simp only [List.filter_cons, hb, decide_false, Bool.false_eq_true, if_false, ih]
        simp only [Nat.not_le] at hb
        simp [hb]
      · simp [hb, Memory.read, h, ih]

theorem Memory.read_zeros (l : List Nat) (a : Nat) :
    Memory.read (l.map (fun b => (b, Config.tailByte))) a = if a ∈ l then some Config.tailByte else none := by
  induction l with
  | nil => simp
  | cons b l ih => by_cases h : a = b <;> simp [Memory.read, h, ih]

theorem Memory.read_zeroFirst (m : Memory) (n a : Nat) :
    Memory.read (Memory.zeroFirst m n) a = if a < n then some Config.tailByte else Memory.read m a := by
  have h := Memory.read_forgetFirst m n a
  simp only [Memory.forgetFirst] at h
  rw [Memory.zeroFirst, Memory.read_append, Memory.read_zeros, h]
  by_cases ha : a < n <;> simp [ha]

theorem Memory.forgetFirst_wf {m : Memory} (n : Nat) (h : m.wf) : (Memory.forgetFirst m n).wf :=
  List.Pairwise.filter _ h

theorem Memory.forgetFirst_below {m : Memory} {cap : Nat} (n : Nat) (h : m.below cap) :
    (Memory.forgetFirst m n).below cap := fun x hx => h x (List.mem_filter.1 hx).1

theorem Memory.zeroFirst_wf {m : Memory} (n : Nat) (h : m.wf) : (Memory.zeroFirst m n).wf := by
  refine List.pairwise_append.2 ⟨?_, Memory.forgetFirst_wf n h, fun x hx y hy => ?_⟩
  · rw [List.pairwise_map]
    exact List.pairwise_lt_range
  · obtain ⟨a, ha, rfl⟩ := List.mem_map.1 hx
    have h1 := List.mem_range.1 ha
    have h2 := of_decide_eq_true (List.mem_filter.1 hy).2
    exact lt_of_lt_of_le h1 h2

theorem Memory.zeroFirst_below {m : Memory} {n cap : Nat} (hn : n ≤ cap) (h : m.below cap) :
    (Memory.zeroFirst m n).below cap := by
  intro x hx
  rcases List.mem_append.1 hx with hx | hx
  · obtain ⟨a, ha, rfl⟩ := List.mem_map.1 hx
    exact lt_of_lt_of_le (List.mem_range.1 ha) hn
  · exact Memory.forgetFirst_below n h x hx

end Sys2Proof.Machine
end

