-- ==== Sys2Proof/Laws/State.lean ====
section
/-! SUPPORT. What each update of the state leaves in each field, so that no later proof unfolds a record update.
A field an update may change on a condition has its lemma in Laws/Ops.lean. -/

namespace Sys2Proof.Machine

/-! ### respond -/

@[simp] theorem respond_cfg (s : State) (r : Option Word) : (respond s r).cfg = s.cfg := rfl
@[simp] theorem respond_nReg (s : State) (r : Option Word) : (respond s r).nReg = s.nReg := rfl
@[simp] theorem respond_status (s : State) (r : Option Word) : (respond s r).status = s.status := rfl
@[simp] theorem respond_len (s : State) (r : Option Word) : (respond s r).len = s.len := rfl
@[simp] theorem respond_engK (s : State) (r : Option Word) : (respond s r).engK = s.engK := rfl
@[simp] theorem respond_engN (s : State) (r : Option Word) : (respond s r).engN = s.engN := rfl
@[simp] theorem respond_engPx (s : State) (r : Option Word) : (respond s r).engPx = s.engPx := rfl
@[simp] theorem respond_pm (s : State) (r : Option Word) : (respond s r).pm = s.pm := rfl
@[simp] theorem respond_tb (s : State) (r : Option Word) : (respond s r).tb = s.tb := rfl
@[simp] theorem respond_faults (s : State) (r : Option Word) : (respond s r).faults = s.faults := rfl
@[simp] theorem respond_draws (s : State) (r : Option Word) : (respond s r).draws = s.draws := rfl
@[simp] theorem respond_rdata (s : State) (r : Option Word) : (respond s r).rdata = r := rfl
@[simp] theorem respond_out (s : State) (r : Option Word) : (respond s r).out = s.out := rfl
@[simp] theorem respond_inputs (s : State) (r : Option Word) : (respond s r).inputs = s.inputs := rfl
@[simp] theorem respond_bus (s : State) (r : Option Word) : (respond s r).bus = s.bus := rfl

/-! ### produce -/

@[simp] theorem produce_cfg (s : State) (l : List Byte) : (produce s l).cfg = s.cfg := rfl
@[simp] theorem produce_nReg (s : State) (l : List Byte) : (produce s l).nReg = s.nReg := rfl
@[simp] theorem produce_status (s : State) (l : List Byte) : (produce s l).status = s.status := rfl
@[simp] theorem produce_len (s : State) (l : List Byte) : (produce s l).len = s.len := rfl
@[simp] theorem produce_engK (s : State) (l : List Byte) : (produce s l).engK = s.engK := rfl
@[simp] theorem produce_engN (s : State) (l : List Byte) : (produce s l).engN = s.engN := rfl
@[simp] theorem produce_engPx (s : State) (l : List Byte) : (produce s l).engPx = s.engPx := rfl
@[simp] theorem produce_pm (s : State) (l : List Byte) : (produce s l).pm = s.pm := rfl
@[simp] theorem produce_tb (s : State) (l : List Byte) : (produce s l).tb = s.tb := rfl
@[simp] theorem produce_faults (s : State) (l : List Byte) : (produce s l).faults = s.faults := rfl
@[simp] theorem produce_draws (s : State) (l : List Byte) : (produce s l).draws = s.draws := rfl
@[simp] theorem produce_rdata (s : State) (l : List Byte) : (produce s l).rdata = s.rdata := rfl
@[simp] theorem produce_out (s : State) (l : List Byte) : (produce s l).out = l := rfl
@[simp] theorem produce_inputs (s : State) (l : List Byte) : (produce s l).inputs = s.inputs := rfl
@[simp] theorem produce_bus (s : State) (l : List Byte) : (produce s l).bus = s.bus := rfl

/-! ### countDraw -/

@[simp] theorem countDraw_cfg (s : State) : (countDraw s).cfg = s.cfg := rfl
@[simp] theorem countDraw_nReg (s : State) : (countDraw s).nReg = s.nReg := rfl
@[simp] theorem countDraw_status (s : State) : (countDraw s).status = s.status := rfl
@[simp] theorem countDraw_len (s : State) : (countDraw s).len = s.len := rfl
@[simp] theorem countDraw_engK (s : State) : (countDraw s).engK = s.engK := rfl
@[simp] theorem countDraw_engN (s : State) : (countDraw s).engN = s.engN := rfl
@[simp] theorem countDraw_engPx (s : State) : (countDraw s).engPx = s.engPx := rfl
@[simp] theorem countDraw_pm (s : State) : (countDraw s).pm = s.pm := rfl
@[simp] theorem countDraw_tb (s : State) : (countDraw s).tb = s.tb := rfl
@[simp] theorem countDraw_faults (s : State) : (countDraw s).faults = s.faults := rfl
@[simp] theorem countDraw_draws (s : State) : (countDraw s).draws = s.draws + 1 := rfl
@[simp] theorem countDraw_rdata (s : State) : (countDraw s).rdata = s.rdata := rfl
@[simp] theorem countDraw_out (s : State) : (countDraw s).out = s.out := rfl
@[simp] theorem countDraw_inputs (s : State) : (countDraw s).inputs = s.inputs := rfl
@[simp] theorem countDraw_bus (s : State) : (countDraw s).bus = s.bus := rfl

/-! ### ignoreStart -/

@[simp] theorem ignoreStart_cfg (s : State) : (ignoreStart s).cfg = s.cfg := rfl
@[simp] theorem ignoreStart_nReg (s : State) : (ignoreStart s).nReg = s.nReg := rfl
@[simp] theorem ignoreStart_status (s : State) : (ignoreStart s).status = statusOverrun s.status := rfl
@[simp] theorem ignoreStart_len (s : State) : (ignoreStart s).len = s.len := rfl
@[simp] theorem ignoreStart_engK (s : State) : (ignoreStart s).engK = s.engK := rfl
@[simp] theorem ignoreStart_engN (s : State) : (ignoreStart s).engN = s.engN := rfl
@[simp] theorem ignoreStart_engPx (s : State) : (ignoreStart s).engPx = s.engPx := rfl
@[simp] theorem ignoreStart_pm (s : State) : (ignoreStart s).pm = s.pm := rfl
@[simp] theorem ignoreStart_tb (s : State) : (ignoreStart s).tb = s.tb := rfl
@[simp] theorem ignoreStart_faults (s : State) : (ignoreStart s).faults = s.faults := rfl
@[simp] theorem ignoreStart_draws (s : State) : (ignoreStart s).draws = s.draws := rfl
@[simp] theorem ignoreStart_rdata (s : State) : (ignoreStart s).rdata = s.rdata := rfl
@[simp] theorem ignoreStart_out (s : State) : (ignoreStart s).out = s.out := rfl
@[simp] theorem ignoreStart_inputs (s : State) : (ignoreStart s).inputs = s.inputs := rfl
@[simp] theorem ignoreStart_bus (s : State) : (ignoreStart s).bus = s.bus := rfl

/-! ### reportError -/

@[simp] theorem reportError_cfg (s : State) (e : Err) : (reportError s e).cfg = s.cfg := rfl
@[simp] theorem reportError_nReg (s : State) (e : Err) : (reportError s e).nReg = s.nReg := rfl
@[simp] theorem reportError_status (s : State) (e : Err) : (reportError s e).status = statusError e := rfl
@[simp] theorem reportError_len (s : State) (e : Err) : (reportError s e).len = 0#32 := rfl
@[simp] theorem reportError_engK (s : State) (e : Err) : (reportError s e).engK = s.engK := rfl
@[simp] theorem reportError_engN (s : State) (e : Err) : (reportError s e).engN = s.engN := rfl
@[simp] theorem reportError_engPx (s : State) (e : Err) : (reportError s e).engPx = s.engPx := rfl
@[simp] theorem reportError_pm (s : State) (e : Err) : (reportError s e).pm = s.pm := rfl
@[simp] theorem reportError_tb (s : State) (e : Err) : (reportError s e).tb = s.tb := rfl
@[simp] theorem reportError_faults (s : State) (e : Err) : (reportError s e).faults = s.faults := rfl
@[simp] theorem reportError_draws (s : State) (e : Err) : (reportError s e).draws = s.draws := rfl
@[simp] theorem reportError_rdata (s : State) (e : Err) : (reportError s e).rdata = s.rdata := rfl
@[simp] theorem reportError_out (s : State) (e : Err) : (reportError s e).out = s.out := rfl
@[simp] theorem reportError_inputs (s : State) (e : Err) : (reportError s e).inputs = s.inputs := rfl
@[simp] theorem reportError_bus (s : State) (e : Err) : (reportError s e).bus = s.bus := rfl

/-! ### acceptStart -/

@[simp] theorem acceptStart_cfg (s : State) (n : Nat) : (acceptStart s n).cfg = s.cfg := rfl
@[simp] theorem acceptStart_nReg (s : State) (n : Nat) : (acceptStart s n).nReg = s.nReg := rfl
@[simp] theorem acceptStart_status (s : State) (n : Nat) : (acceptStart s n).status = statusBusy := rfl
@[simp] theorem acceptStart_len (s : State) (n : Nat) :
    (acceptStart s n).len = BitVec.ofNat 32 (frameLen s.cfg n) := rfl
@[simp] theorem acceptStart_engK (s : State) (n : Nat) : (acceptStart s n).engK = 0 := rfl
@[simp] theorem acceptStart_engN (s : State) (n : Nat) : (acceptStart s n).engN = n := rfl
@[simp] theorem acceptStart_engPx (s : State) (n : Nat) : (acceptStart s n).engPx = s.engPx := rfl
@[simp] theorem acceptStart_pm (s : State) (n : Nat) : (acceptStart s n).pm = s.pm := rfl
@[simp] theorem acceptStart_tb (s : State) (n : Nat) :
    (acceptStart s n).tb = Memory.zeroFirst s.tb (frameLen s.cfg n) := rfl
@[simp] theorem acceptStart_faults (s : State) (n : Nat) : (acceptStart s n).faults = s.faults := rfl
@[simp] theorem acceptStart_draws (s : State) (n : Nat) : (acceptStart s n).draws = s.draws := rfl
@[simp] theorem acceptStart_rdata (s : State) (n : Nat) : (acceptStart s n).rdata = s.rdata := rfl
@[simp] theorem acceptStart_out (s : State) (n : Nat) : (acceptStart s n).out = s.out := rfl
@[simp] theorem acceptStart_inputs (s : State) (n : Nat) : (acceptStart s n).inputs = s.inputs := rfl
@[simp] theorem acceptStart_bus (s : State) (n : Nat) : (acceptStart s n).bus = s.bus := rfl

/-! ### writeSymbol -/

@[simp] theorem writeSymbol_cfg (s : State) : (writeSymbol s).cfg = s.cfg := rfl
@[simp] theorem writeSymbol_nReg (s : State) : (writeSymbol s).nReg = s.nReg := rfl
@[simp] theorem writeSymbol_status (s : State) : (writeSymbol s).status = s.status := rfl
@[simp] theorem writeSymbol_len (s : State) : (writeSymbol s).len = s.len := rfl
@[simp] theorem writeSymbol_engK (s : State) : (writeSymbol s).engK = s.engK + 1 := rfl
@[simp] theorem writeSymbol_engN (s : State) : (writeSymbol s).engN = s.engN := rfl
@[simp] theorem writeSymbol_engPx (s : State) : (writeSymbol s).engPx = s.engPx := rfl
@[simp] theorem writeSymbol_pm (s : State) : (writeSymbol s).pm = s.pm := rfl
@[simp] theorem writeSymbol_tb (s : State) :
    (writeSymbol s).tb = Memory.write s.tb s.engK (symbolAt s.cfg s.engPx s.engK) := rfl
@[simp] theorem writeSymbol_faults (s : State) : (writeSymbol s).faults = s.faults := rfl
@[simp] theorem writeSymbol_draws (s : State) : (writeSymbol s).draws = s.draws := rfl
@[simp] theorem writeSymbol_rdata (s : State) : (writeSymbol s).rdata = s.rdata := rfl
@[simp] theorem writeSymbol_out (s : State) : (writeSymbol s).out = s.out := rfl
@[simp] theorem writeSymbol_inputs (s : State) : (writeSymbol s).inputs = s.inputs := rfl
@[simp] theorem writeSymbol_bus (s : State) : (writeSymbol s).bus = s.bus := rfl

/-! ### zeroTail -/

@[simp] theorem zeroTail_cfg (s : State) (k : Nat) : (zeroTail s k).cfg = s.cfg := rfl
@[simp] theorem zeroTail_nReg (s : State) (k : Nat) : (zeroTail s k).nReg = s.nReg := rfl
@[simp] theorem zeroTail_status (s : State) (k : Nat) : (zeroTail s k).status = s.status := rfl
@[simp] theorem zeroTail_len (s : State) (k : Nat) : (zeroTail s k).len = s.len := rfl
@[simp] theorem zeroTail_engK (s : State) (k : Nat) : (zeroTail s k).engK = s.engK := rfl
@[simp] theorem zeroTail_engN (s : State) (k : Nat) : (zeroTail s k).engN = s.engN := rfl
@[simp] theorem zeroTail_engPx (s : State) (k : Nat) : (zeroTail s k).engPx = s.engPx := rfl
@[simp] theorem zeroTail_pm (s : State) (k : Nat) : (zeroTail s k).pm = s.pm := rfl
@[simp] theorem zeroTail_tb (s : State) (k : Nat) : (zeroTail s k).tb = Memory.write s.tb k Config.tailByte := rfl
@[simp] theorem zeroTail_faults (s : State) (k : Nat) : (zeroTail s k).faults = s.faults := rfl
@[simp] theorem zeroTail_draws (s : State) (k : Nat) : (zeroTail s k).draws = s.draws := rfl
@[simp] theorem zeroTail_rdata (s : State) (k : Nat) : (zeroTail s k).rdata = s.rdata := rfl
@[simp] theorem zeroTail_out (s : State) (k : Nat) : (zeroTail s k).out = s.out := rfl
@[simp] theorem zeroTail_inputs (s : State) (k : Nat) : (zeroTail s k).inputs = s.inputs := rfl
@[simp] theorem zeroTail_bus (s : State) (k : Nat) : (zeroTail s k).bus = s.bus := rfl

/-! ### applyReset -/

@[simp] theorem applyReset_cfg (s : State) : (applyReset s).cfg = s.cfg := rfl
@[simp] theorem applyReset_nReg (s : State) : (applyReset s).nReg = 0#32 := rfl
@[simp] theorem applyReset_status (s : State) : (applyReset s).status = statusIdle := rfl
@[simp] theorem applyReset_len (s : State) : (applyReset s).len = 0#32 := rfl
@[simp] theorem applyReset_engK (s : State) : (applyReset s).engK = 0 := rfl
@[simp] theorem applyReset_engN (s : State) : (applyReset s).engN = 0 := rfl
@[simp] theorem applyReset_pm (s : State) : (applyReset s).pm = s.pm := rfl
@[simp] theorem applyReset_tb (s : State) : (applyReset s).tb = s.tb := rfl
@[simp] theorem applyReset_faults (s : State) : (applyReset s).faults = s.faults := rfl
@[simp] theorem applyReset_draws (s : State) : (applyReset s).draws = s.draws + 3 := rfl
@[simp] theorem applyReset_rdata (s : State) : (applyReset s).rdata = s.rdata := rfl
@[simp] theorem applyReset_out (s : State) : (applyReset s).out = s.out := rfl
@[simp] theorem applyReset_inputs (s : State) : (applyReset s).inputs = s.inputs := rfl
@[simp] theorem applyReset_bus (s : State) : (applyReset s).bus = s.bus := rfl

/-! ### recordFault -/

@[simp] theorem recordFault_cfg (s : State) (f : Fault) : (recordFault s f).cfg = s.cfg := by
  unfold recordFault; split <;> rfl
@[simp] theorem recordFault_nReg (s : State) (f : Fault) : (recordFault s f).nReg = s.nReg := by
  unfold recordFault; split <;> rfl
@[simp] theorem recordFault_status (s : State) (f : Fault) : (recordFault s f).status = s.status := by
  unfold recordFault; split <;> rfl
@[simp] theorem recordFault_len (s : State) (f : Fault) : (recordFault s f).len = s.len := by
  unfold recordFault; split <;> rfl
@[simp] theorem recordFault_engK (s : State) (f : Fault) : (recordFault s f).engK = s.engK := by
  unfold recordFault; split <;> rfl
@[simp] theorem recordFault_engN (s : State) (f : Fault) : (recordFault s f).engN = s.engN := by
  unfold recordFault; split <;> rfl
@[simp] theorem recordFault_engPx (s : State) (f : Fault) : (recordFault s f).engPx = s.engPx := by
  unfold recordFault; split <;> rfl
@[simp] theorem recordFault_pm (s : State) (f : Fault) : (recordFault s f).pm = s.pm := by
  unfold recordFault; split <;> rfl
@[simp] theorem recordFault_tb (s : State) (f : Fault) : (recordFault s f).tb = s.tb := by
  unfold recordFault; split <;> rfl
@[simp] theorem recordFault_draws (s : State) (f : Fault) : (recordFault s f).draws = s.draws := by
  unfold recordFault; split <;> rfl
@[simp] theorem recordFault_rdata (s : State) (f : Fault) : (recordFault s f).rdata = s.rdata := by
  unfold recordFault; split <;> rfl
@[simp] theorem recordFault_out (s : State) (f : Fault) : (recordFault s f).out = s.out := by
  unfold recordFault; split <;> rfl
@[simp] theorem recordFault_inputs (s : State) (f : Fault) : (recordFault s f).inputs = s.inputs := by
  unfold recordFault; split <;> rfl
@[simp] theorem recordFault_bus (s : State) (f : Fault) : (recordFault s f).bus = s.bus := by
  unfold recordFault; split <;> rfl

/-! ### faultIfBusy -/

@[simp] theorem faultIfBusy_cfg (s : State) (f : Fault) : (faultIfBusy s f).cfg = s.cfg := by
  unfold faultIfBusy; split <;> simp
@[simp] theorem faultIfBusy_nReg (s : State) (f : Fault) : (faultIfBusy s f).nReg = s.nReg := by
  unfold faultIfBusy; split <;> simp
@[simp] theorem faultIfBusy_status (s : State) (f : Fault) : (faultIfBusy s f).status = s.status := by
  unfold faultIfBusy; split <;> simp
@[simp] theorem faultIfBusy_len (s : State) (f : Fault) : (faultIfBusy s f).len = s.len := by
  unfold faultIfBusy; split <;> simp
@[simp] theorem faultIfBusy_engK (s : State) (f : Fault) : (faultIfBusy s f).engK = s.engK := by
  unfold faultIfBusy; split <;> simp
@[simp] theorem faultIfBusy_engN (s : State) (f : Fault) : (faultIfBusy s f).engN = s.engN := by
  unfold faultIfBusy; split <;> simp
@[simp] theorem faultIfBusy_engPx (s : State) (f : Fault) : (faultIfBusy s f).engPx = s.engPx := by
  unfold faultIfBusy; split <;> simp
@[simp] theorem faultIfBusy_pm (s : State) (f : Fault) : (faultIfBusy s f).pm = s.pm := by
  unfold faultIfBusy; split <;> simp
@[simp] theorem faultIfBusy_tb (s : State) (f : Fault) : (faultIfBusy s f).tb = s.tb := by
  unfold faultIfBusy; split <;> simp
@[simp] theorem faultIfBusy_draws (s : State) (f : Fault) : (faultIfBusy s f).draws = s.draws := by
  unfold faultIfBusy; split <;> simp
@[simp] theorem faultIfBusy_rdata (s : State) (f : Fault) : (faultIfBusy s f).rdata = s.rdata := by
  unfold faultIfBusy; split <;> simp
@[simp] theorem faultIfBusy_out (s : State) (f : Fault) : (faultIfBusy s f).out = s.out := by
  unfold faultIfBusy; split <;> simp
@[simp] theorem faultIfBusy_inputs (s : State) (f : Fault) : (faultIfBusy s f).inputs = s.inputs := by
  unfold faultIfBusy; split <;> simp
@[simp] theorem faultIfBusy_bus (s : State) (f : Fault) : (faultIfBusy s f).bus = s.bus := by
  unfold faultIfBusy; split <;> simp

/-! ### writeRegister -/

@[simp] theorem writeRegister_cfg (s : State) (i : Index) (v : Word) : (writeRegister s i v).cfg = s.cfg := by
  unfold writeRegister; split <;> rfl
@[simp] theorem writeRegister_status (s : State) (i : Index) (v : Word) : (writeRegister s i v).status = s.status := by
  unfold writeRegister; split <;> rfl
@[simp] theorem writeRegister_len (s : State) (i : Index) (v : Word) : (writeRegister s i v).len = s.len := by
  unfold writeRegister; split <;> rfl
@[simp] theorem writeRegister_engK (s : State) (i : Index) (v : Word) : (writeRegister s i v).engK = s.engK := by
  unfold writeRegister; split <;> rfl
@[simp] theorem writeRegister_engN (s : State) (i : Index) (v : Word) : (writeRegister s i v).engN = s.engN := by
  unfold writeRegister; split <;> rfl
@[simp] theorem writeRegister_engPx (s : State) (i : Index) (v : Word) : (writeRegister s i v).engPx = s.engPx := by
  unfold writeRegister; split <;> rfl
@[simp] theorem writeRegister_pm (s : State) (i : Index) (v : Word) : (writeRegister s i v).pm = s.pm := by
  unfold writeRegister; split <;> rfl
@[simp] theorem writeRegister_tb (s : State) (i : Index) (v : Word) : (writeRegister s i v).tb = s.tb := by
  unfold writeRegister; split <;> rfl
@[simp] theorem writeRegister_faults (s : State) (i : Index) (v : Word) : (writeRegister s i v).faults = s.faults := by
  unfold writeRegister; split <;> rfl
@[simp] theorem writeRegister_draws (s : State) (i : Index) (v : Word) : (writeRegister s i v).draws = s.draws := by
  unfold writeRegister; split <;> rfl
@[simp] theorem writeRegister_rdata (s : State) (i : Index) (v : Word) : (writeRegister s i v).rdata = s.rdata := by
  unfold writeRegister; split <;> rfl
@[simp] theorem writeRegister_out (s : State) (i : Index) (v : Word) : (writeRegister s i v).out = s.out := by
  unfold writeRegister; split <;> rfl
@[simp] theorem writeRegister_inputs (s : State) (i : Index) (v : Word) : (writeRegister s i v).inputs = s.inputs := by
  unfold writeRegister; split <;> rfl
@[simp] theorem writeRegister_bus (s : State) (i : Index) (v : Word) : (writeRegister s i v).bus = s.bus := by
  unfold writeRegister; split <;> rfl

/-! ### respondByte -/

@[simp] theorem respondByte_cfg (s : State) (b : Option Byte) : (respondByte s b).cfg = s.cfg := by
  cases b <;> rfl
@[simp] theorem respondByte_nReg (s : State) (b : Option Byte) : (respondByte s b).nReg = s.nReg := by
  cases b <;> rfl
@[simp] theorem respondByte_status (s : State) (b : Option Byte) : (respondByte s b).status = s.status := by
  cases b <;> rfl
@[simp] theorem respondByte_len (s : State) (b : Option Byte) : (respondByte s b).len = s.len := by
  cases b <;> rfl
@[simp] theorem respondByte_engK (s : State) (b : Option Byte) : (respondByte s b).engK = s.engK := by
  cases b <;> rfl
@[simp] theorem respondByte_engN (s : State) (b : Option Byte) : (respondByte s b).engN = s.engN := by
  cases b <;> rfl
@[simp] theorem respondByte_engPx (s : State) (b : Option Byte) : (respondByte s b).engPx = s.engPx := by
  cases b <;> rfl
@[simp] theorem respondByte_pm (s : State) (b : Option Byte) : (respondByte s b).pm = s.pm := by
  cases b <;> rfl
@[simp] theorem respondByte_tb (s : State) (b : Option Byte) : (respondByte s b).tb = s.tb := by
  cases b <;> rfl
@[simp] theorem respondByte_faults (s : State) (b : Option Byte) : (respondByte s b).faults = s.faults := by
  cases b <;> rfl
@[simp] theorem respondByte_out (s : State) (b : Option Byte) : (respondByte s b).out = s.out := by
  cases b <;> rfl
@[simp] theorem respondByte_inputs (s : State) (b : Option Byte) : (respondByte s b).inputs = s.inputs := by
  cases b <;> rfl
@[simp] theorem respondByte_bus (s : State) (b : Option Byte) : (respondByte s b).bus = s.bus := by
  cases b <;> rfl

/-! ### storePm -/

@[simp] theorem storePm_cfg (s : State) (a : Nat) (d : Byte) : (storePm s a d).cfg = s.cfg := by
  unfold storePm; split <;> rfl
@[simp] theorem storePm_nReg (s : State) (a : Nat) (d : Byte) : (storePm s a d).nReg = s.nReg := by
  unfold storePm; split <;> rfl
@[simp] theorem storePm_status (s : State) (a : Nat) (d : Byte) : (storePm s a d).status = s.status := by
  unfold storePm; split <;> rfl
@[simp] theorem storePm_len (s : State) (a : Nat) (d : Byte) : (storePm s a d).len = s.len := by
  unfold storePm; split <;> rfl
@[simp] theorem storePm_engK (s : State) (a : Nat) (d : Byte) : (storePm s a d).engK = s.engK := by
  unfold storePm; split <;> rfl
@[simp] theorem storePm_engN (s : State) (a : Nat) (d : Byte) : (storePm s a d).engN = s.engN := by
  unfold storePm; split <;> rfl
@[simp] theorem storePm_engPx (s : State) (a : Nat) (d : Byte) : (storePm s a d).engPx = s.engPx := by
  unfold storePm; split <;> rfl
@[simp] theorem storePm_tb (s : State) (a : Nat) (d : Byte) : (storePm s a d).tb = s.tb := by
  unfold storePm; split <;> rfl
@[simp] theorem storePm_faults (s : State) (a : Nat) (d : Byte) : (storePm s a d).faults = s.faults := by
  unfold storePm; split <;> rfl
@[simp] theorem storePm_draws (s : State) (a : Nat) (d : Byte) : (storePm s a d).draws = s.draws := by
  unfold storePm; split <;> rfl
@[simp] theorem storePm_rdata (s : State) (a : Nat) (d : Byte) : (storePm s a d).rdata = s.rdata := by
  unfold storePm; split <;> rfl
@[simp] theorem storePm_out (s : State) (a : Nat) (d : Byte) : (storePm s a d).out = s.out := by
  unfold storePm; split <;> rfl
@[simp] theorem storePm_inputs (s : State) (a : Nat) (d : Byte) : (storePm s a d).inputs = s.inputs := by
  unfold storePm; split <;> rfl
@[simp] theorem storePm_bus (s : State) (a : Nat) (d : Byte) : (storePm s a d).bus = s.bus := by
  unfold storePm; split <;> rfl

/-! ### storeTb -/

@[simp] theorem storeTb_cfg (s : State) (a : Nat) (d : Byte) : (storeTb s a d).cfg = s.cfg := by
  unfold storeTb; split <;> rfl
@[simp] theorem storeTb_nReg (s : State) (a : Nat) (d : Byte) : (storeTb s a d).nReg = s.nReg := by
  unfold storeTb; split <;> rfl
@[simp] theorem storeTb_status (s : State) (a : Nat) (d : Byte) : (storeTb s a d).status = s.status := by
  unfold storeTb; split <;> rfl
@[simp] theorem storeTb_len (s : State) (a : Nat) (d : Byte) : (storeTb s a d).len = s.len := by
  unfold storeTb; split <;> rfl
@[simp] theorem storeTb_engK (s : State) (a : Nat) (d : Byte) : (storeTb s a d).engK = s.engK := by
  unfold storeTb; split <;> rfl
@[simp] theorem storeTb_engN (s : State) (a : Nat) (d : Byte) : (storeTb s a d).engN = s.engN := by
  unfold storeTb; split <;> rfl
@[simp] theorem storeTb_engPx (s : State) (a : Nat) (d : Byte) : (storeTb s a d).engPx = s.engPx := by
  unfold storeTb; split <;> rfl
@[simp] theorem storeTb_pm (s : State) (a : Nat) (d : Byte) : (storeTb s a d).pm = s.pm := by
  unfold storeTb; split <;> rfl
@[simp] theorem storeTb_faults (s : State) (a : Nat) (d : Byte) : (storeTb s a d).faults = s.faults := by
  unfold storeTb; split <;> rfl
@[simp] theorem storeTb_draws (s : State) (a : Nat) (d : Byte) : (storeTb s a d).draws = s.draws := by
  unfold storeTb; split <;> rfl
@[simp] theorem storeTb_rdata (s : State) (a : Nat) (d : Byte) : (storeTb s a d).rdata = s.rdata := by
  unfold storeTb; split <;> rfl
@[simp] theorem storeTb_out (s : State) (a : Nat) (d : Byte) : (storeTb s a d).out = s.out := by
  unfold storeTb; split <;> rfl
@[simp] theorem storeTb_inputs (s : State) (a : Nat) (d : Byte) : (storeTb s a d).inputs = s.inputs := by
  unfold storeTb; split <;> rfl
@[simp] theorem storeTb_bus (s : State) (a : Nat) (d : Byte) : (storeTb s a d).bus = s.bus := by
  unfold storeTb; split <;> rfl

/-! ### recordLoad -/

@[simp] theorem recordLoad_cfg (s : State) (a : Nat) : (recordLoad s a).cfg = s.cfg := by
  unfold recordLoad; split <;> simp
@[simp] theorem recordLoad_nReg (s : State) (a : Nat) : (recordLoad s a).nReg = s.nReg := by
  unfold recordLoad; split <;> simp
@[simp] theorem recordLoad_status (s : State) (a : Nat) : (recordLoad s a).status = s.status := by
  unfold recordLoad; split <;> simp
@[simp] theorem recordLoad_len (s : State) (a : Nat) : (recordLoad s a).len = s.len := by
  unfold recordLoad; split <;> simp
@[simp] theorem recordLoad_engK (s : State) (a : Nat) : (recordLoad s a).engK = s.engK := by
  unfold recordLoad; split <;> simp
@[simp] theorem recordLoad_engN (s : State) (a : Nat) : (recordLoad s a).engN = s.engN := by
  unfold recordLoad; split <;> simp
@[simp] theorem recordLoad_engPx (s : State) (a : Nat) : (recordLoad s a).engPx = s.engPx := by
  unfold recordLoad; split <;> simp
@[simp] theorem recordLoad_pm (s : State) (a : Nat) : (recordLoad s a).pm = s.pm := by
  unfold recordLoad; split <;> simp
@[simp] theorem recordLoad_tb (s : State) (a : Nat) : (recordLoad s a).tb = s.tb := by
  unfold recordLoad; split <;> simp
@[simp] theorem recordLoad_rdata (s : State) (a : Nat) : (recordLoad s a).rdata = s.rdata := by
  unfold recordLoad; split <;> simp
@[simp] theorem recordLoad_out (s : State) (a : Nat) : (recordLoad s a).out = s.out := by
  unfold recordLoad; split <;> simp
@[simp] theorem recordLoad_inputs (s : State) (a : Nat) : (recordLoad s a).inputs = s.inputs := by
  unfold recordLoad; split <;> simp
@[simp] theorem recordLoad_bus (s : State) (a : Nat) : (recordLoad s a).bus = s.bus := by
  unfold recordLoad; split <;> simp

/-! ### latchPixel -/

@[simp] theorem latchPixel_cfg (s : State) (p : Nat) : (latchPixel s p).cfg = s.cfg := by
  simp [latchPixel]
@[simp] theorem latchPixel_nReg (s : State) (p : Nat) : (latchPixel s p).nReg = s.nReg := by
  simp [latchPixel]
@[simp] theorem latchPixel_status (s : State) (p : Nat) : (latchPixel s p).status = s.status := by
  simp [latchPixel]
@[simp] theorem latchPixel_len (s : State) (p : Nat) : (latchPixel s p).len = s.len := by
  simp [latchPixel]
@[simp] theorem latchPixel_engK (s : State) (p : Nat) : (latchPixel s p).engK = s.engK := by
  simp [latchPixel]
@[simp] theorem latchPixel_engN (s : State) (p : Nat) : (latchPixel s p).engN = s.engN := by
  simp [latchPixel]
@[simp] theorem latchPixel_pm (s : State) (p : Nat) : (latchPixel s p).pm = s.pm := by
  simp [latchPixel]
@[simp] theorem latchPixel_tb (s : State) (p : Nat) : (latchPixel s p).tb = s.tb := by
  simp [latchPixel]
@[simp] theorem latchPixel_rdata (s : State) (p : Nat) : (latchPixel s p).rdata = s.rdata := by
  simp [latchPixel]
@[simp] theorem latchPixel_out (s : State) (p : Nat) : (latchPixel s p).out = s.out := by
  simp [latchPixel]
@[simp] theorem latchPixel_inputs (s : State) (p : Nat) : (latchPixel s p).inputs = s.inputs := by
  simp [latchPixel]
@[simp] theorem latchPixel_bus (s : State) (p : Nat) : (latchPixel s p).bus = s.bus := by
  simp [latchPixel]

/-! ### latchIfFirst -/

@[simp] theorem latchIfFirst_cfg (s : State) : (latchIfFirst s).cfg = s.cfg := by
  unfold latchIfFirst; split <;> simp
@[simp] theorem latchIfFirst_nReg (s : State) : (latchIfFirst s).nReg = s.nReg := by
  unfold latchIfFirst; split <;> simp
@[simp] theorem latchIfFirst_status (s : State) : (latchIfFirst s).status = s.status := by
  unfold latchIfFirst; split <;> simp
@[simp] theorem latchIfFirst_len (s : State) : (latchIfFirst s).len = s.len := by
  unfold latchIfFirst; split <;> simp
@[simp] theorem latchIfFirst_engK (s : State) : (latchIfFirst s).engK = s.engK := by
  unfold latchIfFirst; split <;> simp
@[simp] theorem latchIfFirst_engN (s : State) : (latchIfFirst s).engN = s.engN := by
  unfold latchIfFirst; split <;> simp
@[simp] theorem latchIfFirst_pm (s : State) : (latchIfFirst s).pm = s.pm := by
  unfold latchIfFirst; split <;> simp
@[simp] theorem latchIfFirst_tb (s : State) : (latchIfFirst s).tb = s.tb := by
  unfold latchIfFirst; split <;> simp
@[simp] theorem latchIfFirst_rdata (s : State) : (latchIfFirst s).rdata = s.rdata := by
  unfold latchIfFirst; split <;> simp
@[simp] theorem latchIfFirst_out (s : State) : (latchIfFirst s).out = s.out := by
  unfold latchIfFirst; split <;> simp
@[simp] theorem latchIfFirst_inputs (s : State) : (latchIfFirst s).inputs = s.inputs := by
  unfold latchIfFirst; split <;> simp
@[simp] theorem latchIfFirst_bus (s : State) : (latchIfFirst s).bus = s.bus := by
  unfold latchIfFirst; split <;> simp

/-! ### completeIfLast -/

@[simp] theorem completeIfLast_cfg (s : State) : (completeIfLast s).cfg = s.cfg := by
  unfold completeIfLast; split <;> rfl
@[simp] theorem completeIfLast_nReg (s : State) : (completeIfLast s).nReg = s.nReg := by
  unfold completeIfLast; split <;> rfl
@[simp] theorem completeIfLast_len (s : State) : (completeIfLast s).len = s.len := by
  unfold completeIfLast; split <;> rfl
@[simp] theorem completeIfLast_engK (s : State) : (completeIfLast s).engK = s.engK := by
  unfold completeIfLast; split <;> rfl
@[simp] theorem completeIfLast_engN (s : State) : (completeIfLast s).engN = s.engN := by
  unfold completeIfLast; split <;> rfl
@[simp] theorem completeIfLast_engPx (s : State) : (completeIfLast s).engPx = s.engPx := by
  unfold completeIfLast; split <;> rfl
@[simp] theorem completeIfLast_pm (s : State) : (completeIfLast s).pm = s.pm := by
  unfold completeIfLast; split <;> rfl
@[simp] theorem completeIfLast_tb (s : State) : (completeIfLast s).tb = s.tb := by
  unfold completeIfLast; split <;> rfl
@[simp] theorem completeIfLast_faults (s : State) : (completeIfLast s).faults = s.faults := by
  unfold completeIfLast; split <;> rfl
@[simp] theorem completeIfLast_draws (s : State) : (completeIfLast s).draws = s.draws := by
  unfold completeIfLast; split <;> rfl
@[simp] theorem completeIfLast_rdata (s : State) : (completeIfLast s).rdata = s.rdata := by
  unfold completeIfLast; split <;> rfl
@[simp] theorem completeIfLast_out (s : State) : (completeIfLast s).out = s.out := by
  unfold completeIfLast; split <;> rfl
@[simp] theorem completeIfLast_inputs (s : State) : (completeIfLast s).inputs = s.inputs := by
  unfold completeIfLast; split <;> rfl
@[simp] theorem completeIfLast_bus (s : State) : (completeIfLast s).bus = s.bus := by
  unfold completeIfLast; split <;> rfl

/-! ### abortFrame -/

@[simp] theorem abortFrame_cfg (s : State) : (abortFrame s).cfg = s.cfg := by
  unfold abortFrame; split <;> rfl
@[simp] theorem abortFrame_nReg (s : State) : (abortFrame s).nReg = s.nReg := by
  unfold abortFrame; split <;> rfl
@[simp] theorem abortFrame_status (s : State) : (abortFrame s).status = s.status := by
  unfold abortFrame; split <;> rfl
@[simp] theorem abortFrame_len (s : State) : (abortFrame s).len = s.len := by
  unfold abortFrame; split <;> rfl
@[simp] theorem abortFrame_engK (s : State) : (abortFrame s).engK = s.engK := by
  unfold abortFrame; split <;> rfl
@[simp] theorem abortFrame_engN (s : State) : (abortFrame s).engN = s.engN := by
  unfold abortFrame; split <;> rfl
@[simp] theorem abortFrame_engPx (s : State) : (abortFrame s).engPx = s.engPx := by
  unfold abortFrame; split <;> rfl
@[simp] theorem abortFrame_pm (s : State) : (abortFrame s).pm = s.pm := by
  unfold abortFrame; split <;> rfl
@[simp] theorem abortFrame_faults (s : State) : (abortFrame s).faults = s.faults := by
  unfold abortFrame; split <;> rfl
@[simp] theorem abortFrame_draws (s : State) : (abortFrame s).draws = s.draws := by
  unfold abortFrame; split <;> rfl
@[simp] theorem abortFrame_rdata (s : State) : (abortFrame s).rdata = s.rdata := by
  unfold abortFrame; split <;> rfl
@[simp] theorem abortFrame_out (s : State) : (abortFrame s).out = s.out := by
  unfold abortFrame; split <;> rfl
@[simp] theorem abortFrame_inputs (s : State) : (abortFrame s).inputs = s.inputs := by
  unfold abortFrame; split <;> rfl
@[simp] theorem abortFrame_bus (s : State) : (abortFrame s).bus = s.bus := by
  unfold abortFrame; split <;> rfl

end Sys2Proof.Machine
end

