-- ==== Sys2Proof/Laws/Ops.lean ====
section
/-! SUPPORT. One specification lemma per shared operation: everything it can do, cited instead of unfolding it. -/

namespace Sys2Proof.Machine

/-! ### Recording faults -/

theorem mem_recordFault {s : State} {f g : Fault} : g ∈ (recordFault s f).faults ↔ g ∈ s.faults ∨ g = f := by
  unfold recordFault
  split
  · constructor
    · exact .inl
    · rintro (h | rfl) <;> assumption
  · simp

theorem recordFault_nodup {s : State} (f : Fault) (h : s.faults.Nodup) : (recordFault s f).faults.Nodup := by
  unfold recordFault
  split
  · exact h
  · refine List.nodup_append.2 ⟨h, by simp, ?_⟩
    rintro a ha b hb rfl
    simp only [List.mem_singleton] at hb
    exact ‹f ∉ s.faults› (hb ▸ ha)

theorem mem_faultIfBusy {s : State} {f g : Fault} :
    g ∈ (faultIfBusy s f).faults ↔ g ∈ s.faults ∨ (s.status.phase = .busy ∧ g = f) := by
  unfold faultIfBusy
  split <;> simp [mem_recordFault, *]

theorem faultIfBusy_nodup {s : State} (f : Fault) (h : s.faults.Nodup) : (faultIfBusy s f).faults.Nodup := by
  unfold faultIfBusy
  split
  · exact recordFault_nodup f h
  · exact h

/-! ### Registers and memory bytes -/

theorem writeRegister_nReg (s : State) (i : Index) (v : Word) :
    (writeRegister s i v).nReg = if i = 0#29 then v else s.nReg := by
  unfold writeRegister
  split <;> rfl

/-- Storing to any register but `N_REG` changes nothing (R24, R29, R30). -/
theorem writeRegister_ignored (s : State) {i : Index} (v : Word) (h : i ≠ 0#29) : writeRegister s i v = s := by
  simp [writeRegister, h]

theorem storePm_pm (s : State) (a : Nat) (d : Byte) :
    (storePm s a d).pm = if s.cfg.pmCapacity ≤ a then s.pm else Memory.write s.pm a d := by
  unfold storePm
  split <;> rfl

theorem storeTb_tb (s : State) (a : Nat) (d : Byte) :
    (storeTb s a d).tb = if s.cfg.tbCapacity ≤ a then s.tb else Memory.write s.tb a d := by
  unfold storeTb
  split <;> rfl

/-! ### START -/

/-- `24 N + RESET_BYTES` fits the transmit buffer exactly up to `N_MAX` (R112). -/
theorem frameLen_le_iff {c : Config} (h : c.Valid) (n : Nat) : frameLen c n ≤ c.tbCapacity ↔ n ≤ c.nMax := by
  have := h.2
  rw [frameLen_of_valid h, h.nMax]
  omega

theorem startOutcome_busy (c : Config) (v : Word) : startOutcome c .busy v = .ignore := by simp [startOutcome]

/-- Ignored exactly in BUSY (R112). -/
theorem startOutcome_eq_ignore {c : Config} {ph : Phase} {v : Word} :
    startOutcome c ph v = .ignore ↔ ph = .busy := by
  unfold startOutcome
  by_cases h : ph = .busy
  · simp [h]
  · simp only [h, if_false, iff_false]
    split
    · simp
    · split <;> simp

/-- Rejected with the code `e` exactly outside BUSY on an invalid count (R112, R154). -/
theorem startOutcome_eq_reject {c : Config} (hc : c.Valid) {ph : Phase} {v : Word} {e : Err} :
    startOutcome c ph v = .reject e ↔
      ph ≠ .busy ∧ ((s32 v ≤ 0 ∧ e = .count) ∨
        (0 < s32 v ∧ 24 * s32 v + 40 > (c.tbCapacity : Int) ∧ e = .capacity)) := by
  unfold startOutcome
  rw [hc.bytesPerLed, hc.resetBytes]
  by_cases h1 : ph = .busy
  · simp [h1]
  · by_cases h2 : s32 v ≤ 0
    · have h2' : ¬ 0 < s32 v := by omega
      simp [h1, h2, h2', eq_comm]
    · have h2' : 0 < s32 v := by omega
      by_cases h3 : 24 * s32 v + 40 > (c.tbCapacity : Int)
      · simp only [h1, if_false, h2, ne_eq, not_false_eq_true, false_and, false_or, h2', true_and]
        push_cast
        simp [h3, eq_comm]
      · simp only [h1, if_false, h2, ne_eq, not_false_eq_true, false_and, false_or, h2', true_and]
        push_cast
        simp [h3]

/-- A rejection has a code (R154). -/
theorem startOutcome_reject_ne_none {c : Config} {ph : Phase} {v : Word} {e : Err}
    (h : startOutcome c ph v = .reject e) : ph ≠ .busy ∧ e ≠ .none := by
  unfold startOutcome at h
  split at h
  · cases h
  · split at h
    · cases h
      exact ⟨‹_›, nofun⟩
    · split at h <;> cases h
      exact ⟨‹_›, nofun⟩

/-- Accepted with `n` pixels exactly outside BUSY on a positive count whose frame fits (R112). -/
theorem startOutcome_eq_accept {c : Config} {ph : Phase} {v : Word} {n : Nat} :
    startOutcome c ph v = .accept n ↔
      ph ≠ .busy ∧ s32 v = (n : Int) ∧ 1 ≤ n ∧ frameLen c n ≤ c.tbCapacity := by
  unfold startOutcome
  by_cases h1 : ph = .busy
  · simp [h1]
  · by_cases h2 : s32 v ≤ 0
    · simp only [h1, if_false, h2, if_true, reduceCtorEq, false_iff]
      omega
    · obtain ⟨m, hm⟩ := Int.eq_ofNat_of_zero_le (show 0 ≤ s32 v by omega)
      have hf : ((c.bytesPerLed : Int) * (m : Int) + c.resetBytes > c.tbCapacity) ↔ ¬ frameLen c m ≤ c.tbCapacity := by
        rw [frameLen]
        omega
      rw [hm] at h2 ⊢
      simp only [h1, if_false, h2, hf, Int.toNat_natCast]
      by_cases h3 : frameLen c m ≤ c.tbCapacity
      · simp only [h3, not_true_eq_false, if_false, StartOutcome.accept.injEq]
        constructor
        · rintro rfl
          exact ⟨h1, rfl, by omega, h3⟩
        · rintro ⟨-, h, -, -⟩
          omega
      · simp only [h3, not_false_eq_true, if_true, reduceCtorEq, false_iff]
        rintro ⟨-, h, -, h'⟩
        exact h3 (by rwa [show m = n by omega])

/-- Everything a START request can do (R112): ignored in BUSY, rejected with a code, or accepted. -/
theorem startRequest_cases (s : State) :
    (s.status.phase = .busy ∧ startRequest s = ignoreStart s) ∨
    (∃ e, s.status.phase ≠ .busy ∧ e ≠ Err.none ∧ startRequest s = reportError s e) ∨
    (∃ n : Nat, s.status.phase ≠ .busy ∧ s32 s.nReg = (n : Int) ∧ 1 ≤ n ∧ frameLen s.cfg n ≤ s.cfg.tbCapacity ∧
      startRequest s = acceptStart s n) := by
  unfold startRequest
  cases h : startOutcome s.cfg s.status.phase s.nReg with
  | ignore => exact .inl ⟨startOutcome_eq_ignore.1 h, rfl⟩
  | reject e =>
    obtain ⟨h1, h2⟩ := startOutcome_reject_ne_none h
    exact .inr (.inl ⟨e, h1, h2, rfl⟩)
  | accept n =>
    obtain ⟨h1, h2, h3, h4⟩ := startOutcome_eq_accept.1 h
    exact .inr (.inr ⟨n, h1, h2, h3, h4, rfl⟩)

/-- `StartsFrame` is what the dispatch accepts (R112). -/
theorem startOutcome_of_startsFrame {s : State} {n : Nat} (hc : s.cfg.Valid) (h : StartsFrame s n) :
    startOutcome s.cfg s.status.phase s.nReg = .accept n :=
  startOutcome_eq_accept.2 ⟨h.1, h.2.1, h.2.2.1, (frameLen_le_iff hc n).2 h.2.2.2⟩

/-! ### The pixel read -/

theorem mem_recordLoad {s : State} {a : Nat} {g : Fault} :
    g ∈ (recordLoad s a).faults ↔ g ∈ s.faults ∨ (Memory.read s.pm a = none ∧ g = .uninitPm a) := by
  unfold recordLoad
  split <;> simp [mem_recordFault, *]

theorem recordLoad_nodup {s : State} (a : Nat) (h : s.faults.Nodup) : (recordLoad s a).faults.Nodup := by
  unfold recordLoad
  split
  · exact h
  · simpa using recordFault_nodup _ h

theorem loadedByte_of_read {s : State} {a : Nat} {v : Byte} (h : Memory.read s.pm a = some v) :
    loadedByte s a = v := by simp [loadedByte, h]

/-- What a pixel read records: one `UNINIT_PM` for each of its bytes that no host write has set (R116, R162). -/
theorem mem_latchPixel {s : State} {p : Nat} {g : Fault} :
    g ∈ (latchPixel s p).faults ↔
      g ∈ s.faults ∨ ∃ ch, Memory.read s.pm (pmIndex p ch) = none ∧ g = .uninitPm (pmIndex p ch) := by
  simp only [latchPixel, mem_recordLoad, recordLoad_pm]
  constructor
  · rintro (((h | h) | h) | h)
    · exact .inl h
    · exact .inr ⟨.red, h⟩
    · exact .inr ⟨.green, h⟩
    · exact .inr ⟨.blue, h⟩
  · rintro (h | ⟨ch, h⟩)
    · exact .inl (.inl (.inl h))
    · cases ch
      · exact .inl (.inl (.inr h))
      · exact .inl (.inr h)
      · exact .inr h

theorem latchPixel_nodup {s : State} (p : Nat) (h : s.faults.Nodup) : (latchPixel s p).faults.Nodup :=
  recordLoad_nodup _ (recordLoad_nodup _ (recordLoad_nodup _ h))

/-- Each channel of the latch is the PM byte where the host has written it (R46, R116). -/
theorem latchPixel_channel {s : State} {p : Nat} {ch : Channel} {v : Byte}
    (h : Memory.read s.pm (pmIndex p ch) = some v) : channelOf (latchPixel s p).engPx ch = v := by
  cases ch <;> exact loadedByte_of_read (by simpa using h)

/-- A written pixel is latched as PM holds it (R46, R116). -/
theorem latchPixel_of_written {s : State} {p : Nat} (h : ∀ ch, (Memory.read s.pm (pmIndex p ch)).isSome = true) :
    (latchPixel s p).engPx = pixelAt s.pm p := by
  have key : ∀ ch, channelOf (latchPixel s p).engPx ch = (Memory.read s.pm (pmIndex p ch)).getD 0#8 := by
    intro ch
    obtain ⟨v, hv⟩ := Option.isSome_iff_exists.1 (h ch)
    rw [latchPixel_channel hv, hv, Option.getD_some]
  generalize (latchPixel s p).engPx = px at key
  cases px
  simp only [pixelAt, Pixel.mk.injEq]
  exact ⟨key .red, key .green, key .blue⟩

/-! ### The engine step -/

theorem latchIfFirst_eq {s : State} (h : s.cfg.Valid) :
    latchIfFirst s = if s.engK % 24 = 0 then latchPixel s (pixelIndex s.cfg s.engK) else s := by
  simp only [latchIfFirst, first_byte_iff h]

theorem completeIfLast_eq {s : State} (h : s.cfg.Valid) :
    completeIfLast s = if s.engK = 24 * s.engN then { s with status := statusDone s.status } else s := by
  rw [completeIfLast, h.bytesPerLed]

theorem completeIfLast_status {s : State} (h : s.cfg.Valid) :
    (completeIfLast s).status = if s.engK = 24 * s.engN then statusDone s.status else s.status := by
  rw [completeIfLast_eq h]
  split <;> rfl

@[simp] theorem completeIfLast_err (s : State) : (completeIfLast s).status.err = s.status.err := by
  unfold completeIfLast
  split <;> rfl

theorem abortFrame_tb (s : State) :
    (abortFrame s).tb = if s.status.phase = .busy then Memory.forgetFirst s.tb s.len.toNat else s.tb := by
  unfold abortFrame
  split <;> rfl

end Sys2Proof.Machine
end

