-- ==== Sys2Proof/Laws/PerInstr.lean ====
section
/-! SUPPORT. Statements made per instruction. `TableRow`: the word of an operation has the SP, WE and IDX values of
its row in spec/opcode_table.json (R69, R92), and its operands in the fields the row gives them. -/

namespace Sys2Proof.Laws.TableRow

/-- What the opcode table says of the word of each operation; an internal operation has none (R92). -/
def Statement : Instr → Prop
  | .rdNreg => ∃ w, encode .rdNreg = some w ∧ htwSp w = 0#2 ∧ htwWe w = false ∧ htwIdx w = 0#29
  | .wrNreg v => ∃ w, encode (.wrNreg v) = some w ∧ htwSp w = 0#2 ∧ htwWe w = true ∧ htwIdx w = 0#29 ∧ htwWdata w = v
  | .rdCtrl => ∃ w, encode .rdCtrl = some w ∧ htwSp w = 0#2 ∧ htwWe w = false ∧ htwIdx w = 1#29
  | .wrCtrl v => ∃ w, encode (.wrCtrl v) = some w ∧ htwSp w = 0#2 ∧ htwWe w = true ∧ htwIdx w = 1#29 ∧ htwWdata w = v
  | .rdStatus => ∃ w, encode .rdStatus = some w ∧ htwSp w = 0#2 ∧ htwWe w = false ∧ htwIdx w = 2#29
  | .wrStatus v => ∃ w, encode (.wrStatus v) = some w ∧ htwSp w = 0#2 ∧ htwWe w = true ∧ htwIdx w = 2#29 ∧ htwWdata w = v
  | .rdLen => ∃ w, encode .rdLen = some w ∧ htwSp w = 0#2 ∧ htwWe w = false ∧ htwIdx w = 3#29
  | .wrLen v => ∃ w, encode (.wrLen v) = some w ∧ htwSp w = 0#2 ∧ htwWe w = true ∧ htwIdx w = 3#29 ∧ htwWdata w = v
  | .rdRsvreg i => ∃ w, encode (.rdRsvreg i) = some w ∧ htwSp w = 0#2 ∧ htwWe w = false ∧ htwIdx w = i
  | .wrRsvreg i v => ∃ w, encode (.wrRsvreg i v) = some w ∧ htwSp w = 0#2 ∧ htwWe w = true ∧ htwIdx w = i ∧ htwWdata w = v
  | .rdPm a => ∃ w, encode (.rdPm a) = some w ∧ htwSp w = 1#2 ∧ htwWe w = false ∧ htwIdx w = a
  | .wrPm a d => ∃ w, encode (.wrPm a d) = some w ∧ htwSp w = 1#2 ∧ htwWe w = true ∧ htwIdx w = a ∧ lowByte (htwWdata w) = d
  | .rdTb a => ∃ w, encode (.rdTb a) = some w ∧ htwSp w = 2#2 ∧ htwWe w = false ∧ htwIdx w = a
  | .wrTb a d => ∃ w, encode (.wrTb a d) = some w ∧ htwSp w = 2#2 ∧ htwWe w = true ∧ htwIdx w = a ∧ lowByte (htwWdata w) = d
  | .rdRsvsp a => ∃ w, encode (.rdRsvsp a) = some w ∧ htwSp w = 3#2 ∧ htwWe w = false ∧ htwIdx w = a
  | .wrRsvsp a v => ∃ w, encode (.wrRsvsp a v) = some w ∧ htwSp w = 3#2 ∧ htwWe w = true ∧ htwIdx w = a ∧ htwWdata w = v
  | .symHigh => encode .symHigh = none
  | .symLow => encode .symLow = none
  | .tailZero n k => encode (.tailZero n k) = none
  | .expand8 v => encode (.expand8 v) = none
  | .pixel24 px => encode (.pixel24 px) = none
  | .encode pixels => Sys2Proof.encode (.encode pixels) = none
  | .startIgnore => encode .startIgnore = none
  | .startReject => encode .startReject = none
  | .startAccept => encode .startAccept = none
  | .engineStep => encode .engineStep = none
  | .reset => encode .reset = none

theorem rdNreg : Statement .rdNreg := ⟨_, rfl, by simp⟩
theorem wrNreg (v : Word) : Statement (.wrNreg v) := ⟨_, rfl, by simp⟩
theorem rdCtrl : Statement .rdCtrl := ⟨_, rfl, by simp⟩
theorem wrCtrl (v : Word) : Statement (.wrCtrl v) := ⟨_, rfl, by simp⟩
theorem rdStatus : Statement .rdStatus := ⟨_, rfl, by simp⟩
theorem wrStatus (v : Word) : Statement (.wrStatus v) := ⟨_, rfl, by simp⟩
theorem rdLen : Statement .rdLen := ⟨_, rfl, by simp⟩
theorem wrLen (v : Word) : Statement (.wrLen v) := ⟨_, rfl, by simp⟩
theorem rdRsvreg (i : Index) : Statement (.rdRsvreg i) := ⟨_, rfl, by simp⟩
theorem wrRsvreg (i : Index) (v : Word) : Statement (.wrRsvreg i v) := ⟨_, rfl, by simp⟩
theorem rdPm (a : Index) : Statement (.rdPm a) := ⟨_, rfl, by simp⟩
theorem wrPm (a : Index) (d : Byte) : Statement (.wrPm a d) := ⟨_, rfl, by simp [lowByte_setWidth]⟩
theorem rdTb (a : Index) : Statement (.rdTb a) := ⟨_, rfl, by simp⟩
theorem wrTb (a : Index) (d : Byte) : Statement (.wrTb a d) := ⟨_, rfl, by simp [lowByte_setWidth]⟩
theorem rdRsvsp (a : Index) : Statement (.rdRsvsp a) := ⟨_, rfl, by simp⟩
theorem wrRsvsp (a : Index) (v : Word) : Statement (.wrRsvsp a v) := ⟨_, rfl, by simp⟩
theorem symHigh : Statement .symHigh := rfl
theorem symLow : Statement .symLow := rfl
theorem tailZero (n k : Nat) : Statement (.tailZero n k) := rfl
theorem expand8 (v : Byte) : Statement (.expand8 v) := rfl
theorem pixel24 (px : Pixel) : Statement (.pixel24 px) := rfl
theorem encode (pixels : List Pixel) : Statement (.encode pixels) := rfl
theorem startIgnore : Statement .startIgnore := rfl
theorem startReject : Statement .startReject := rfl
theorem startAccept : Statement .startAccept := rfl
theorem engineStep : Statement .engineStep := rfl
theorem reset : Statement .reset := rfl

end Sys2Proof.Laws.TableRow
end

