-- ==== Sys2Proof/Laws/Step.lean ====
section
/-! SUPPORT. Which host transaction a register index selects, and, once for all claims, everything a step can do. -/

namespace Sys2Proof

theorem regIndex_cases (i : Index) : i = 0#29 ∨ i = 1#29 ∨ i = 2#29 ∨ i = 3#29 ∨ 4 ≤ i.toNat := by
  by_cases h : 4 ≤ i.toNat
  · simp [h]
  · have : i.toNat = 0 ∨ i.toNat = 1 ∨ i.toNat = 2 ∨ i.toNat = 3 := by omega
    rcases this with h | h | h | h
    · exact .inl (BitVec.eq_of_toNat_eq (by simpa using h))
    · exact .inr (.inl (BitVec.eq_of_toNat_eq (by simpa using h)))
    · exact .inr (.inr (.inl (BitVec.eq_of_toNat_eq (by simpa using h))))
    · exact .inr (.inr (.inr (.inl (BitVec.eq_of_toNat_eq (by simpa using h)))))

theorem decodeRegRead_reserved {i : Index} (h : 4 ≤ i.toNat) : decodeRegRead i = .rdRsvreg i := by
  have h0 : i ≠ 0#29 := by rintro rfl; simp at h
  have h1 : i ≠ 1#29 := by rintro rfl; simp at h
  have h2 : i ≠ 2#29 := by rintro rfl; simp at h
  have h3 : i ≠ 3#29 := by rintro rfl; simp at h
  simp [decodeRegRead, *]

theorem decodeRegWrite_reserved {i : Index} (v : Word) (h : 4 ≤ i.toNat) : decodeRegWrite i v = .wrRsvreg i v := by
  have h0 : i ≠ 0#29 := by rintro rfl; simp at h
  have h1 : i ≠ 1#29 := by rintro rfl; simp at h
  have h2 : i ≠ 2#29 := by rintro rfl; simp at h
  have h3 : i ≠ 3#29 := by rintro rfl; simp at h
  simp [decodeRegWrite, *]

namespace Machine

/-- A Bus Session turn that answers a next state. -/
inductive SessionMoves (s t : State) : Prop
  /-- It performed its next transaction and moved on by the response. -/
  | transacts (j : Job) (w : Htw) (u : State) (hj : s.bus.job = some j) (hw : nextWord j = some w)
      (hu : exec (decode w) s = .next u) (ht : t = { u with bus := afterResponse u.bus j (u.rdata.getD 0#32) })
  /-- It made its transfer. -/
  | transfers (j : Job) (hj : s.bus.job = some j) (hw : nextWord j = none)
      (ht : t = { s with bus := transferFrame s.cfg s.bus j })
  /-- There was no send. -/
  | rests (hj : s.bus.job = none) (ht : t = s)

/-- Everything a step that answers a next state can have done: `x` is the input it consumed, if any, and `u` the state
without that input. -/
inductive Moves (x : Option Input) (u t : State) : Prop
  /-- The host, the engine or the reset input performed an operation. -/
  | performs (i : Instr)
      (hi : (∃ w, x = some (.host w) ∧ i = decode w) ∨ i = .engineStep ∨ (x = some .reset ∧ i = .reset))
      (h : exec i u = .next t)
  | session (h : SessionMoves u t)
  /-- A call of the Bus Session began. -/
  | calls (c : Call) (hx : x = some (.call c)) (hj : u.bus.job = none) (ht : t = { u with bus := beginCall u.bus c })
  /-- The engine had no step. -/
  | rests (ht : t = u)

theorem sessionTurn_cases {s t : State} (h : sessionTurn s = .next t) : SessionMoves s t := by
  unfold sessionTurn at h
  split at h
  · injection h with h
    exact .rests ‹_› h.symm
  · split at h
    · rename_i j hj _ w hw
      cases hu : exec (decode w) s with
      | next u =>
        simp only [hostTurn, hu, absorbResponse] at h
        injection h with h
        exact .transacts j w u hj hw hu h.symm
      | fault f => simp [hostTurn, hu, absorbResponse] at h
      | refused r => simp [hostTurn, hu, absorbResponse] at h
    · injection h with h
      exact .transfers _ ‹_› ‹_› h.symm

theorem engineTurn_cases (x : Option Input) {s t : State} (h : engineTurn s = .next t) : Moves x s t := by
  unfold engineTurn at h
  split at h
  · exact .performs _ (.inr (.inl rfl)) h
  · injection h with h
    exact .rests h.symm

theorem unpromptedTurn_cases {s t : State} (h : unpromptedTurn s = .next t) : Moves none s t := by
  unfold unpromptedTurn at h
  split at h
  · exact engineTurn_cases _ h
  · exact .session (sessionTurn_cases h)

/-- The step inversion: an input was consumed or none was, and with the inputs left one of the moves was made. -/
theorem step_cases {s t : State} (h : step s = .next t) :
    ∃ x rest, s.inputs = Option.toList x ++ rest ∧ Moves x { s with inputs := rest } t := by
  unfold step takeTurn at h
  split at h
  · exact ⟨none, s.inputs, rfl, unpromptedTurn_cases h⟩
  · exact ⟨_, _, ‹_›, .performs _ (.inl ⟨_, rfl, rfl⟩) h⟩
  · exact ⟨some .engine, _, ‹_›, engineTurn_cases _ h⟩
  · exact ⟨_, _, ‹_›, .performs _ (.inr (.inr ⟨rfl, rfl⟩)) h⟩
  · exact ⟨some .session, _, ‹_›, .session (sessionTurn_cases h)⟩
  · rename_i c rest hin
    unfold callTurn at h
    split at h
    · injection h with h
      exact ⟨some (.call c), rest, hin, .calls c rfl ‹_› h.symm⟩
    · exact ⟨none, s.inputs, rfl, unpromptedTurn_cases h⟩

end Machine

end Sys2Proof
end

