-- ==== Sys2Proof/Tests/Slice0.lean ====
section
/-! SUPPORT. The model's own tests. Expected values are those of spec/95_test_vectors.md (the vector is named in each
comment) or are computed by hand from the rule named. The last part gives, for every obligation with hypotheses, a
witness that meets them. -/

namespace Sys2Proof.Tests

open Sys2Proof Sys2Proof.Machine

/-! ### Helpers -/

/-- The next state of an outcome. -/
def after : Result → Option State
  | .next t => some t
  | .fault _ => none
  | .refused _ => none

/-- A field of the next state. -/
def got {α : Type} (f : State → α) (r : Result) : Option α := (after r).map f

/-- A memory holding `bytes` from address 0 on. -/
def listed (bytes : List Byte) : Memory := (List.range bytes.length).map (fun a => (a, bytes.getD a 0#8))

/-- The smallest block: TB_CAPACITY 64, N_MAX 1, PM_CAPACITY 3. -/
def small : Config := Config.build 64

/-- The pixel bytes of the E vectors, (0x10, 0x20, 0x30). -/
def pmBytes : List Byte := [0x10#8, 0x20#8, 0x30#8]

/-- The 24 symbol bytes of the pixel (0x10, 0x20, 0x30), as vector P24.6 writes them out. -/
def symbols : List Byte :=
  [0x03#8, 0x03#8, 0x1F#8, 0x03#8, 0x03#8, 0x03#8, 0x03#8, 0x03#8,
   0x03#8, 0x03#8, 0x03#8, 0x1F#8, 0x03#8, 0x03#8, 0x03#8, 0x03#8,
   0x03#8, 0x03#8, 0x1F#8, 0x1F#8, 0x03#8, 0x03#8, 0x03#8, 0x03#8]

/-- IDLE, the pixel loaded, `N_REG` as given. -/
def idleWith (n : Word) : State := { State.powerOn small with nReg := n, pm := listed pmBytes }

/-- The reference block in IDLE, `N_REG` as given. -/
def bigWith (n : Word) : State := { State.reset with nReg := n }

/-- BUSY with a one-pixel frame, `k` bytes written. -/
def busyAt (k : Nat) : State :=
  { State.powerOn small with
    nReg := 1#32
    status := statusBusy
    len := 64#32
    engK := k
    engN := 1
    engPx := { r := 0x10#8, g := 0x20#8, b := 0x30#8 }
    pm := listed pmBytes
    tb := listed (symbols.take k ++ List.replicate (64 - k) 0x00#8) }

/-- DONE with that frame. -/
def doneState : State :=
  { busyAt 24 with status := statusDone statusBusy }

/-- ERROR with `E_CAPACITY`. -/
def errorState : State := { State.powerOn small with nReg := 2#32, status := statusError .capacity }

/-- A `send` of one pixel on handle 0 at stage `st`. -/
def jobAt (st : Stage) : Job :=
  { handle := 0, pixels := [{ r := 0x10#8, g := 0x20#8, b := 0x30#8 }], answer := .transferred 64, stage := st }

/-- The Bus Session with handle 0 Closed and handle 1 Open. -/
def twoHandles : Bus := { Bus.initial with handles := [.closed, .opened] }

/-- `s` with that send in progress, handle 0 Open. -/
def sending (s : State) (st : Stage) : State :=
  { s with bus := { Bus.initial with handles := [.opened], job := some (jobAt st) } }

/-! ### Well-formedness: a term each check refuses -/

theorem test_wf_rdRsvreg : (Instr.rdRsvreg 3#29).wellFormed small = false ∧ (Instr.rdRsvreg 4#29).wellFormed small = true := by
  decide

theorem test_wf_wrRsvreg :
    (Instr.wrRsvreg 3#29 0#32).wellFormed small = false ∧ (Instr.wrRsvreg 4#29 0#32).wellFormed small = true := by decide

theorem test_wf_tailZero_count : (Instr.tailZero 0 10).wellFormed small = false := by decide

theorem test_wf_tailZero_below :
    (Instr.tailZero 1 23).wellFormed small = false ∧ (Instr.tailZero 1 24).wellFormed small = true := by decide

theorem test_wf_tailZero_past :
    (Instr.tailZero 1 64).wellFormed small = false ∧ (Instr.tailZero 1 63).wellFormed small = true := by decide

theorem test_wf_encode :
    (Instr.encode []).wellFormed small = false ∧ (Instr.encode [{ r := 0#8, g := 0#8, b := 0#8 }]).wellFormed small = true := by
  decide

/-! ### Decoding: words written out in 95_test_vectors.md 2.4 (H1 to H23) -/

theorem test_decode_rdNreg : decode 0x0000000000000000#64 = .rdNreg := by decide
theorem test_decode_wrNreg : decode 0x20000000FFFFFFFF#64 = .wrNreg 0xFFFFFFFF#32 := by decide
theorem test_decode_rdCtrl : decode 0x0000000100000000#64 = .rdCtrl := by decide
theorem test_decode_wrCtrl : decode 0x2000000100000002#64 = .wrCtrl 2#32 := by decide
theorem test_decode_rdStatus : decode 0x0000000200000000#64 = .rdStatus := by decide
theorem test_decode_wrStatus : decode 0x20000002FFFFFFFF#64 = .wrStatus 0xFFFFFFFF#32 := by decide
theorem test_decode_rdLen : decode 0x0000000300000000#64 = .rdLen := by decide
theorem test_decode_wrLen : decode 0x2000000300000005#64 = .wrLen 5#32 := by decide
theorem test_decode_rdRsvreg : decode 0x1FFFFFFF00000000#64 = .rdRsvreg 0x1FFFFFFF#29 := by decide
theorem test_decode_wrRsvreg : decode 0x2000000500000001#64 = .wrRsvreg 5#29 1#32 := by decide
theorem test_decode_rdPm : decode 0x400000B400000000#64 = .rdPm 180#29 := by decide
theorem test_decode_wrPm : decode 0x60000000000001FF#64 = .wrPm 0#29 0xFF#8 := by decide
theorem test_decode_rdTb : decode 0x800005C800000000#64 = .rdTb 1480#29 := by decide
theorem test_decode_wrTb : decode 0xA000000000000055#64 = .wrTb 0#29 0x55#8 := by decide
theorem test_decode_rdRsvsp : decode 0xC000000000000000#64 = .rdRsvsp 0#29 := by decide
theorem test_decode_wrRsvsp : decode 0xE000000100000001#64 = .wrRsvsp 1#29 1#32 := by decide

/-- The three arbitrary words of section 2.4. -/
theorem test_decode_all_ones :
    decode 0x3FFFFFFFFFFFFFFF#64 = .wrRsvreg 0x1FFFFFFF#29 0xFFFFFFFF#32 ∧
    decode 0x7FFFFFFFFFFFFFFF#64 = .wrPm 0x1FFFFFFF#29 0xFF#8 ∧
    decode 0xFFFFFFFFFFFFFFFF#64 = .wrRsvsp 0x1FFFFFFF#29 0xFFFFFFFF#32 := by decide

/-- The encoder gives the words of H14, H16, H19 and H12. -/
theorem test_encode_words :
    encode (.wrPm 0#29 0xFF#8) = some 0x60000000000000FF#64 ∧ encode (.rdPm 4#29) = some 0x4000000400000000#64 ∧
    encode (.rdTb 5#29) = some 0x8000000500000000#64 ∧ encode (.wrRsvreg 5#29 1#32) = some 0x2000000500000001#64 := by
  decide

/-- Internal operations have no word (R92). -/
theorem test_encode_internal :
    [Instr.symHigh, .symLow, .tailZero 1 24, .expand8 0#8, .pixel24 { r := 0#8, g := 0#8, b := 0#8 },
      .encode [{ r := 0#8, g := 0#8, b := 0#8 }], .startIgnore, .startReject, .startAccept, .engineStep,
      .reset].map encode = List.replicate 11 none := by decide

/-- A row of the table as the host asks for it, and its first step (H3). -/
theorem test_table_word :
    decodeTableWord 64 0x20000000FFFFFFFF = some (.wrNreg 0xFFFFFFFF#32) ∧ decodeTableWord 0 0 = none ∧
    got State.nReg (step (State.reset.withFetchWord 64 0x20000000FFFFFFFF)) = some 0xFFFFFFFF#32 := by decide

/-- The pseudo-instructions of program P2: LOADPX 1 and DUMPTB (R90). -/
theorem test_host_programs :
    loadPx 1 { r := 0xFF#8, g := 0x00#8, b := 0x80#8 } =
      [0x60000003000000FF#64, 0x6000000400000000#64, 0x6000000500000080#64] ∧
    encodeFrame 2#32 1 = [0x2000000000000002#64, 0x2000000100000001#64, 0x0000000200000000#64] ∧
    dumpTb 2 = [0x8000000000000000#64, 0x8000000100000000#64] := by decide

/-- ENCODEFRAME writes the count unchanged: H3's word, which START then rejects with E_COUNT (R90, S2). -/
theorem test_encodeFrame_unchanged :
    encodeFrame 0xFFFFFFFF#32 0 = [0x20000000FFFFFFFF#64, 0x2000000100000001#64] ∧
    startOutcome Config.reference .idle 0xFFFFFFFF#32 = .reject .count := by decide

/-! ### Register transactions -/

theorem test_rdNreg : got State.rdata (exec .rdNreg (bigWith 0x3C#32)) = some (some 0x3C#32) := by decide
theorem test_wrNreg_busy :
    got (fun t => (t.nReg, t.engN, t.len)) (exec (.wrNreg 2#32) (busyAt 5)) = some (2#32, 1, 64#32) := by decide
theorem test_rdCtrl : got State.rdata (exec .rdCtrl (busyAt 5)) = some (some 0#32) := by decide
/-- The values of R76 that request a START, and those that do not. -/
theorem test_wrCtrl_requests :
    [0x00000001#32, 0xFFFFFFFF#32, 0x80000001#32, 0x00000000#32, 0x00000002#32].map requestsStart =
      [true, true, true, false, false] := by decide
theorem test_wrCtrl_none : got State.status (exec (.wrCtrl 2#32) (busyAt 5)) = some statusBusy := by decide
/-- `STATUS` values of section 2.4. -/
theorem test_rdStatus :
    [State.reset, busyAt 5, ignoreStart (busyAt 5), doneState, ignoreStart doneState,
      reportError State.reset .count, errorState].map (fun s => got State.rdata (exec .rdStatus s)) =
    [some (some 0x00000000#32), some (some 0x00000001#32), some (some 0x00000101#32), some (some 0x00000002#32),
      some (some 0x00000102#32), some (some 0x00000013#32), some (some 0x00000023#32)] := by decide
theorem test_wrStatus : got State.status (exec (.wrStatus 0xFFFFFFFF#32) errorState) = some (statusError .capacity) := by
  decide
theorem test_rdLen : got State.rdata (exec .rdLen (busyAt 5)) = some (some 0x40#32) := by decide
theorem test_wrLen : got (fun t => (t.len, t.rdata)) (exec (.wrLen 5#32) (busyAt 5)) = some (64#32, none) := by decide
theorem test_rdRsvreg : got State.rdata (exec (.rdRsvreg 4#29) (bigWith 7#32)) = some (some 0#32) := by decide
theorem test_wrRsvreg :
    got (fun t => (t.nReg, t.status)) (exec (.wrRsvreg 5#29 1#32) (bigWith 1#32)) = some (1#32, statusIdle) := by decide

/-! ### Memory transactions -/

/-- H16, H18. -/
theorem test_rdPm :
    got State.rdata (exec (.rdPm 1#29) (idleWith 1#32)) = some (some 0x20#32) ∧
    got State.rdata (exec (.rdPm 180#29) State.reset) = some (some 0#32) := by decide
/-- H14, H17. -/
theorem test_wrPm :
    got State.pm (exec (.wrPm 0#29 0xFF#8) State.reset) = some [(0, 0xFF#8)] ∧
    got State.pm (exec (.wrPm 180#29 0x11#8) State.reset) = some [] := by decide
/-- H25: the fault is recorded and the byte is written. -/
theorem test_wrPm_busy :
    got (fun t => (t.faults, Memory.read t.pm 0)) (exec (.wrPm 0#29 0#8) (busyAt 5)) =
      some ([.pmWriteBusy 0], some 0#8) := by decide
/-- H21, and RDTB 2 of the finished frame. -/
theorem test_rdTb :
    got State.rdata (exec (.rdTb 2#29) doneState) = some (some 0x1F#32) ∧
    got State.rdata (exec (.rdTb 1480#29) State.reset) = some (some 0#32) := by decide
/-- H24: a draw, and no fault. -/
theorem test_rdTb_busy :
    got (fun t => (t.draws, t.faults)) (exec (.rdTb 2#29) (busyAt 5)) = some (1, []) := by decide
/-- H20. -/
theorem test_wrTb : got State.tb (exec (.wrTb 0#29 0x55#8) State.reset) = some [(0, 0x55#8)] := by decide
/-- H26. -/
theorem test_wrTb_busy : got State.faults (exec (.wrTb 0#29 0#8) (busyAt 5)) = some [.tbWriteBusy 0] := by decide
theorem test_rdRsvsp : got State.rdata (exec (.rdRsvsp 0#29) (idleWith 1#32)) = some (some 0#32) := by decide
theorem test_wrRsvsp :
    got (fun t => (t.nReg, t.pm, t.status)) (exec (.wrRsvsp 1#29 1#32) (idleWith 1#32)) =
      some (1#32, listed pmBytes, statusIdle) := by decide

/-! ### Symbols, expansion and frames -/

/-- B1, B2. -/
theorem test_symHigh : got State.out (exec .symHigh State.reset) = some [0x1F#8] := by decide
theorem test_symLow : got State.out (exec .symLow State.reset) = some [0x03#8] := by decide
/-- B3, B4. -/
theorem test_tailZero :
    got State.tb (exec (.tailZero 1 24) (idleWith 1#32)) = some [(24, 0#8)] ∧
    got State.tb (exec (.tailZero 1 63) (idleWith 1#32)) = some [(63, 0#8)] := by decide
/-- X8. -/
theorem test_expand8 :
    got State.out (exec (.expand8 0xA5#8) State.reset) =
      some [0x1F#8, 0x03#8, 0x1F#8, 0x03#8, 0x03#8, 0x1F#8, 0x03#8, 0x1F#8] := by decide
/-- X3, X4. -/
theorem test_expand8_order :
    expand8 small 0x80#8 = 0x1F#8 :: List.replicate 7 0x03#8 ∧
    expand8 small 0x01#8 = List.replicate 7 0x03#8 ++ [0x1F#8] := by
  decide
/-- P24.6. -/
theorem test_pixel24 :
    got State.out (exec (.pixel24 { r := 0x10#8, g := 0x20#8, b := 0x30#8 }) State.reset) = some symbols := by decide
/-- P24.3. -/
theorem test_pixel24_red :
    pixel24 small { r := 0xFF#8, g := 0x00#8, b := 0x00#8 } =
      List.replicate 8 0x03#8 ++ List.replicate 8 0x1F#8 ++ List.replicate 8 0x03#8 := by decide
/-- The two-pixel frame of section 2.3. -/
theorem test_encode :
    got State.out (exec (.encode [{ r := 0x10#8, g := 0x20#8, b := 0x30#8 }, { r := 0xFF#8, g := 0x00#8, b := 0x80#8 }])
      State.reset) =
    some (symbols ++ List.replicate 8 0x03#8 ++ List.replicate 8 0x1F#8 ++ (0x1F#8 :: List.replicate 7 0x03#8) ++
      List.replicate 40 0x00#8) := by decide
/-- `N_MAX` from `TB_CAPACITY`, section 2.3. -/
theorem test_nMax :
    [64, 87, 88, 1480, 1503, 1504].map (fun c => (Config.build c).nMax) = [1, 1, 2, 60, 60, 61] := by decide

/-! ### START (S1 to S12) -/

/-- S1 to S4, S7, S8 from IDLE: rejected, with their codes. -/
theorem test_startReject :
    [0x00000000#32, 0xFFFFFFFF#32, 0x80000000#32, 0xFFFFFFC4#32, 0x0000003D#32, 0x7FFFFFFF#32].map
      (fun n => got (fun t => (statusWord t.status, t.len)) (exec .startReject (bigWith n))) =
    [some (0x13#32, 0#32), some (0x13#32, 0#32), some (0x13#32, 0#32), some (0x13#32, 0#32), some (0x23#32, 0#32),
      some (0x23#32, 0#32)] := by decide
/-- S9: two pixels do not fit 64 bytes. S12: from DONE, the old bytes stay. -/
theorem test_wrCtrl_reject :
    got (fun t => statusWord t.status) (exec (.wrCtrl 1#32) (idleWith 2#32)) = some 0x23#32 ∧
    got (fun t => (statusWord t.status, t.len, t.tb)) (exec (.wrCtrl 1#32) { doneState with nReg := 0#32 }) =
      some (0x13#32, 0#32, doneState.tb) := by decide
/-- S5, S6: accepted, the outcome and the length. -/
theorem test_startOutcome_accept :
    [0x00000001#32, 0x0000003C#32].map (fun n => startOutcome Config.reference .idle n) = [.accept 1, .accept 60] ∧
    [1, 2, 3, 59, 60].map (frameLen small) = [64, 88, 112, 1456, 1480] := by decide
/-- S5 on the small block: BUSY, 64 bytes, all zero. -/
theorem test_startAccept :
    got (fun t => (statusWord t.status, t.len, t.engN, t.tb)) (exec .startAccept (idleWith 1#32)) =
      some (1#32, 64#32, 1, listed (List.replicate 64 0#8)) := by decide
/-- S11: from DONE with OVR, the overrun is cleared. -/
theorem test_wrCtrl_accept :
    got (fun t => (statusWord t.status, t.len)) (exec (.wrCtrl 1#32) (ignoreStart doneState)) =
      some (1#32, 64#32) := by decide
/-- S10: only OVR changes. -/
theorem test_startIgnore :
    got (fun t => (statusWord t.status, t.len, t.engK, t.tb)) (exec .startIgnore (busyAt 5)) =
      some (0x101#32, 64#32, 5, (busyAt 5).tb) := by decide

/-! ### The engine (E1 to E5) -/

/-- E1: the pixel is read and byte 0 written. -/
theorem test_engine_first :
    got (fun t => (t.engPx, Memory.read t.tb 0, t.engK, t.status.phase))
      (exec .engineStep { busyAt 0 with engPx := { r := 0#8, g := 0#8, b := 0#8 } }) =
    some ({ r := 0x10#8, g := 0x20#8, b := 0x30#8 }, some 0x03#8, 1, .busy) := by decide
/-- E2, E3, E4: byte 2, byte 8 and the last byte. -/
theorem test_engine_later :
    [2, 8, 23].map (fun k => got (fun t => (Memory.read t.tb k, t.engK, t.status.phase)) (exec .engineStep (busyAt k))) =
    [some (some 0x1F#8, 3, .busy), some (some 0x03#8, 9, .busy), some (some 0x03#8, 24, .done)] := by decide
/-- E5: an unwritten green byte is recorded. -/
theorem test_engine_unwritten :
    got (fun t => (t.faults, t.engPx.r, t.engPx.b, t.engK, t.draws))
      (exec .engineStep { busyAt 0 with pm := [(0, 0x10#8), (2, 0x30#8)] }) =
    some ([.uninitPm 1], 0x10#8, 0x30#8, 1, 1) := by decide

/-! ### Reset (RS1 to RS5) -/

/-- RS2, RS5: the frame's bytes and the faults stay. -/
theorem test_reset_done :
    got (fun t => (statusWord t.status, t.len, t.tb)) (exec .reset doneState) = some (0#32, 0#32, doneState.tb) ∧
    got State.faults (exec .reset { doneState with faults := [.pmWriteBusy 0] }) = some [.pmWriteBusy 0] := by decide
/-- RS3: the aborted frame's bytes have no value, PM stays. -/
theorem test_reset_busy :
    got (fun t => (statusWord t.status, t.len, t.tb)) (exec .reset (busyAt 10)) = some (0#32, 0#32, []) ∧
    got (fun t => (t.pm, t.engK, t.engN)) (exec .reset (busyAt 10)) = some (listed pmBytes, 0, 0) := by decide

/-! ### The Bus Session and the wire -/

/-- A `send` on a Closed handle, on a negative and an unset one, of no pixel and of a negative count is rejected
(L1.7, R144, R173). -/
theorem test_send_rejected :
    [beginCall twoHandles (.sendPixels 0 (.sequence [{ r := 0#8, g := 0#8, b := 0#8 }]) (.transferred 64)),
      beginCall twoHandles (.sendPixels (-1) (.sequence [{ r := 0#8, g := 0#8, b := 0#8 }]) (.transferred 64)),
      beginCall twoHandles (.sendPixels 2 (.sequence [{ r := 0#8, g := 0#8, b := 0#8 }]) (.transferred 64)),
      beginCall twoHandles (.sendPixels 1 (.sequence []) (.transferred 0)),
      beginCall twoHandles (.sendPixels 1 (.negative 0) (.transferred 0))].map (fun b => (b.result, b.job)) =
    List.replicate 5 (some (.failed .invalidArgument), none) := by decide
/-- A handle stays Closed after its `close`, another `open` gives another handle (R141). -/
theorem test_closed_stays_closed :
    [0, 1, 2].map (handleState (beginCall twoHandles (.openPath true true))) = [.closed, .opened, .opened] ∧
    [0, 1].map (handleState (beginCall (beginCall twoHandles (.closeHandle 1)) (.openPath false true))) =
      [.closed, .closed] := by decide
/-- A whole transfer is the success, a short one a failure, an error signal comes back with its diagnostic (R146, R147,
R175). -/
theorem test_send_result :
    [TransferAnswer.transferred 64, .transferred 63, .failed (-5)].map (answerResult 64) =
      [.sent 64, .failed (.transfer (.transferred 63)), .failed (.transfer (.failed (-5)))] := by decide
/-- The one request carries the whole buffer and ends the send (R146). -/
theorem test_send_transfer :
    got (fun t => (t.bus.job, t.bus.transfers))
      (step { sending doneState (.dump 1 [0x03#8]) with inputs := [.session] }) =
    some (none, [{ handle := 0, buf := [0x03#8], len := 1, clockHz := 6400000, wordBits := 8 }]) := by decide
/-- One symbol is one pulse of 5 or 2 bit times in either bit order (R99, section 2.6). -/
theorem test_pulses :
    [WireBitOrder.msbFirst, .lsbFirst].map (fun o => pulses (wireLevels o [0x1F#8, 0x1F#8, 0x03#8, 0x00#8])) =
      [[5, 5, 2], [5, 5, 2]] := by decide

/-! ### Witnesses: states and operands that meet the hypotheses of each obligation -/

/-- The outcome is a next state with the property `p`. -/
theorem next_of {r : Result} (p : State → Bool) (h : (after r).any p = true) : ∃ t, r = .next t ∧ p t = true := by
  cases r with
  | next t => exact ⟨t, rfl, h⟩
  | fault f => cases h
  | refused f => cases h

theorem listed_wf (bytes : List Byte) : (listed bytes).wf := by
  simp only [listed, Memory.wf, List.pairwise_map]
  exact List.pairwise_lt_range

theorem test_reset_inv : State.reset.Inv where
  cfg_valid := by decide
  pm_wf := by decide
  tb_wf := by decide
  pm_below := by decide
  tb_below := by decide
  faults_nodup := by decide
  idle := by decide
  busy := by decide
  done := by decide
  error := by decide
  ovr := by decide
  engN_le := by decide
  engK_le := by decide
  frame_defined := by decide
  job_ok := by intro j h; cases h
  job_open := by intro j h; cases h

theorem test_busy_inv : (busyAt 23).Inv where
  cfg_valid := by decide
  pm_wf := listed_wf _
  tb_wf := listed_wf _
  pm_below := by decide
  tb_below := by decide
  faults_nodup := by decide
  idle := by decide
  busy := by decide
  done := by decide
  error := by decide
  ovr := by decide
  engN_le := by decide
  engK_le := by decide
  frame_defined := by decide
  job_ok := by intro j h; cases h
  job_open := by intro j h; cases h

/-- A finished frame that a `send` has collected whole. -/
def collected : State := sending doneState (.dump 64 (symbols ++ List.replicate 40 0x00#8))

theorem test_done_inv : collected.Inv where
  cfg_valid := by decide
  pm_wf := listed_wf _
  tb_wf := listed_wf _
  pm_below := by decide
  tb_below := by decide
  faults_nodup := by decide
  idle := by decide
  busy := by decide
  done := by decide
  error := by decide
  ovr := by decide
  engN_le := by decide
  engK_le := by decide
  frame_defined := by decide
  job_ok := by
    intro j h
    obtain rfl : jobAt _ = j := Option.some.inj h
    simp [jobAt, Job.Ok, symbols]
  job_open := by
    intro j h
    obtain rfl : jobAt _ = j := Option.some.inj h
    decide

theorem test_error_inv : errorState.Inv where
  cfg_valid := by decide
  pm_wf := by decide
  tb_wf := by decide
  pm_below := by decide
  tb_below := by decide
  faults_nodup := by decide
  idle := by decide
  busy := by decide
  done := by decide
  error := by decide
  ovr := by decide
  engN_le := by decide
  engK_le := by decide
  frame_defined := by decide
  job_ok := by intro j h; cases h
  job_open := by intro j h; cases h

/-- DecodeInvertsEncode, at the largest index. -/
theorem test_witness_decodeInvertsEncode :
    (Instr.wrPm 0x1FFFFFFF#29 0xFF#8).wellFormed small = true ∧
    encode (.wrPm 0x1FFFFFFF#29 0xFF#8) = some 0x7FFFFFFF000000FF#64 ∧
    (Instr.rdRsvreg 4#29).wellFormed small = true ∧ encode (.rdRsvreg 4#29) = some 0x0000000400000000#64 := by decide

/-- EveryWordIsAHostTransaction: a read, and writes of the four spaces. -/
theorem test_witness_everyWord :
    htwWe 0x0000000100000005#64 = false ∧
    [0x2000000100000001#64, 0x60000000000001FF#64, 0xA000000000000055#64, 0xE000000100000001#64].map
      (fun w => (htwSp w, htwWe w)) = [(0#2, true), (1#2, true), (2#2, true), (3#2, true)] := by decide

/-- FieldsSelectTheTransaction: the first and the last reserved register index. -/
theorem test_witness_fields : 4 ≤ (4#29).toNat ∧ 4 ≤ (0x1FFFFFFF#29).toNat ∧ ¬ 4 ≤ (3#29).toNat := by decide

/-- IgnoredWriteDataDoesNotDecode: two words with the same low byte. -/
theorem test_witness_ignoredWriteData :
    (1#2 = 1#2 ∨ 1#2 = 2#2) ∧ lowByte 0x000001FF#32 = lowByte 0x000000FF#32 ∧ 0x000001FF#32 ≠ 0x000000FF#32 := by decide

/-- EngineAndResetTurns: BUSY, and not BUSY outside a send, with nothing asked for. -/
theorem test_witness_turns :
    (busyAt 5).inputs = [] ∧ (busyAt 5).status.phase = .busy ∧
    doneState.inputs = [] ∧ doneState.status.phase ≠ .busy ∧ doneState.bus.job = none := by decide

/-- SessionTurnRunsDecodedTransaction: with a transaction to issue, and with all bytes collected. -/
theorem test_witness_sessionTurn :
    ((sending doneState .readLen).bus.job = some (jobAt .readLen) ∧ nextWord (jobAt .readLen) = some rdLenWord ∧
      ∃ t, exec (decode rdLenWord) { sending doneState .readLen with inputs := [] } = .next t ∧
        (t.rdata == some 64#32) = true) ∧
    nextWord (jobAt (.dump 1 [0x03#8])) = none :=
  ⟨⟨rfl, rfl, next_of _ (by decide)⟩, rfl⟩

/-- StepKeepsInvariant: the step that completes a frame. -/
theorem test_witness_stepKeepsInvariant : (busyAt 23).Inv ∧ ∃ t, step (busyAt 23) = .next t ∧ (t.engK == 24) = true :=
  ⟨test_busy_inv, next_of _ (by decide)⟩

/-- PowerOnMeetsInvariant and PowerOnState, at the ends of the range of `TB_CAPACITY`. -/
theorem test_witness_powerOn :
    (Config.build 64).Valid ∧ (Config.build (2 ^ 29)).Valid ∧ ¬ (Config.build 63).Valid ∧
    ¬ { small with highSym := 0x07#8 }.Valid ∧ State.reset = State.powerOn Config.reference :=
  ⟨by decide, by decide, by decide, by decide, rfl⟩

/-- StatusHasOneOfSevenValues: an IDLE, a BUSY, a DONE and an ERROR state with the invariant. -/
theorem test_witness_status :
    State.reset.Inv ∧ (busyAt 23).Inv ∧ collected.Inv ∧ errorState.Inv ∧
    [State.reset, busyAt 23, collected, errorState].map (fun s => s.status.phase) = [.idle, .busy, .done, .error] :=
  ⟨test_reset_inv, test_busy_inv, test_done_inv, test_error_inv, by decide⟩

/-- FaultsAreSticky: a reset with a fault recorded. -/
theorem test_witness_faultsAreSticky :
    Fault.pmWriteBusy 0 ∈ ({ busyAt 5 with faults := [.pmWriteBusy 0], inputs := [.reset] } : State).faults ∧
    ∃ t, step { busyAt 5 with faults := [.pmWriteBusy 0], inputs := [.reset] } = .next t ∧
      (t.status == statusIdle) = true :=
  ⟨by decide, next_of _ (by decide)⟩

/-- FaultsComeFromBrokenDuties: a valid configuration; each of the three faults, and one that was there. -/
theorem test_witness_faultsComeFrom :
    (busyAt 5).cfg.Valid ∧ (busyAt 0).cfg.Valid ∧
    (∃ t, exec (.wrPm 0#29 0#8) (busyAt 5) = .next t ∧ decide (Fault.pmWriteBusy 0 ∈ t.faults) = true) ∧
    (∃ t, exec (.wrTb 0#29 0#8) (busyAt 5) = .next t ∧ decide (Fault.tbWriteBusy 0 ∈ t.faults) = true) ∧
    (∃ t, exec .engineStep { busyAt 0 with pm := [] } = .next t ∧ decide (Fault.uninitPm 2 ∈ t.faults) = true) ∧
    (∃ t, exec .rdLen { busyAt 5 with faults := [.uninitPm 1] } = .next t ∧
      decide (Fault.uninitPm 1 ∈ t.faults) = true) :=
  ⟨by decide, by decide, next_of _ (by decide), next_of _ (by decide), next_of _ (by decide), next_of _ (by decide)⟩

/-- KeptDutiesAddOnlyUninitPm: a PM write outside BUSY, and an engine step that reads an unwritten byte; the overrun kept
by a read. -/
theorem test_witness_keptDuties :
    (dutyKept (.wrPm 0#29 0#8) doneState = true ∧
      ∃ t, exec (.wrPm 0#29 0#8) doneState = .next t ∧ (t.faults == []) = true) ∧
    (dutyKept .engineStep { busyAt 0 with pm := [] } = true ∧
      ∃ t, exec .engineStep { busyAt 0 with pm := [] } = .next t ∧ decide (Fault.uninitPm 0 ∈ t.faults) = true) ∧
    (dutyKept .rdStatus (ignoreStart (busyAt 5)) = true ∧
      ∃ t, exec .rdStatus (ignoreStart (busyAt 5)) = .next t ∧ t.status.ovr = true) :=
  ⟨⟨by decide, next_of _ (by decide)⟩, ⟨by decide, next_of _ (by decide)⟩, ⟨by decide, next_of _ (by decide)⟩⟩

/-- ConfigurationNeverChanges and OperationsLeaveTheOutsideAlone. -/
theorem test_witness_frames :
    (∃ t, step doneState = .next t ∧ (t.cfg == small) = true) ∧
    (∃ t, exec .reset (sending doneState .poll) = .next t ∧ t.bus.job.isSome = true) :=
  ⟨next_of _ (by decide), next_of _ (by decide)⟩

/-- PhaseTransitions: a valid configuration; each of the transitions of R28. -/
theorem test_witness_phases :
    (busyAt 5).cfg.Valid ∧ (busyAt 23).cfg.Valid ∧ (idleWith 1#32).cfg.Valid ∧
    (∃ t, exec .reset (busyAt 5) = .next t ∧ (t.status.phase == .idle) = true) ∧
    (∃ t, exec .engineStep (busyAt 23) = .next t ∧ (t.status.phase == .done) = true) ∧
    (∃ t, exec (.wrCtrl 1#32) (idleWith 1#32) = .next t ∧ (t.status.phase == .busy) = true) ∧
    (∃ t, exec (.wrCtrl 1#32) (idleWith 0#32) = .next t ∧ (t.status.phase == .error) = true) :=
  ⟨by decide, by decide, by decide, next_of _ (by decide), next_of _ (by decide), next_of _ (by decide),
    next_of _ (by decide)⟩

/-- CountIsLatchedInBusy: a new count written in BUSY. -/
theorem test_witness_countIsLatched :
    (busyAt 5).status.phase = .busy ∧ Instr.wrNreg 2#32 ≠ .reset ∧
    ∃ t, exec (.wrNreg 2#32) (busyAt 5) = .next t ∧ (t.nReg == 2#32) = true :=
  ⟨by decide, by decide, next_of _ (by decide)⟩

/-- HostReadsHaveNoSideEffects: a read of TB in BUSY. -/
theorem test_witness_hostReads :
    htwWe 0x8000000000000000#64 = false ∧ htwSp 0x8000000000000000#64 ≠ 0#2 ∧
    ∃ t, exec (decode 0x8000000000000000#64) (busyAt 5) = .next t ∧ t.rdata.isSome = true :=
  ⟨by decide, by decide, next_of _ (by decide)⟩

/-- StartRequestDispatch: each case, at the counts 0, 1, 60 and 61 of the reference block. -/
theorem test_witness_dispatch :
    Config.reference.Valid ∧ (2#32).getLsbD 0 = false ∧ (1#32).getLsbD 0 = true ∧
    (busyAt 5).status.phase = .busy ∧ (bigWith 0#32).status.phase ≠ .busy ∧
    (bigWith 0#32).nReg.toInt ≤ 0 ∧ 0 < (bigWith 1#32).nReg.toInt ∧
    24 * (bigWith 60#32).nReg.toInt + 40 ≤ ((bigWith 60#32).cfg.tbCapacity : Int) ∧
    24 * (bigWith 61#32).nReg.toInt + 40 > ((bigWith 61#32).cfg.tbCapacity : Int) := by decide

/-- StartIgnoreSetsOverrunOnly, and the case BUSY of the others. -/
theorem test_witness_startIgnore : (busyAt 5).status.phase = .busy ∧ (busyAt 5).status.ovr = false := by decide

/-- StartRejectReportsTheError: count 0 with E_COUNT, count 2 of a one-pixel block with E_CAPACITY. -/
theorem test_witness_startReject :
    (idleWith 0#32).cfg.Valid ∧ (idleWith 2#32).cfg.Valid ∧
    (idleWith 0#32).status.phase ≠ .busy ∧ ((idleWith 0#32).nReg.toInt ≤ 0 ∧ Err.count = .count) ∧
    (0 < (idleWith 2#32).nReg.toInt ∧ 24 * (idleWith 2#32).nReg.toInt + 40 > ((idleWith 2#32).cfg.tbCapacity : Int) ∧
      Err.capacity = .capacity) := by decide

/-- StartAcceptBeginsTheFrame: one pixel, and N_MAX pixels. -/
theorem test_witness_startAccept :
    Config.reference.Valid ∧ StartsFrame (bigWith 1#32) 1 ∧ StartsFrame (bigWith 60#32) 60 :=
  ⟨by decide, ⟨by decide, by decide, by decide, by decide⟩, ⟨by decide, by decide, by decide, by decide⟩⟩

/-- UnacceptedStartWritesNoMemory: a rejected and an ignored request. -/
theorem test_witness_unaccepted :
    (∃ t, exec (.wrCtrl 1#32) { doneState with nReg := 0#32 } = .next t ∧ (t.status.phase == .error) = true) ∧
    (doneState.status.phase ≠ .busy ∧ (1#32).getLsbD 0 = true) ∧
    ((busyAt 5).status.phase = .busy ∧ ∃ t, exec (.wrCtrl 1#32) (busyAt 5) = .next t ∧ t.status.ovr = true) :=
  ⟨next_of _ (by decide), by decide, by decide, next_of _ (by decide)⟩

/-- InternalOperationsAreSelected: each clause; the counts are those just outside 1 to N_MAX, the tail indices those
just outside 24 to 63. -/
theorem test_witness_selected :
    (idleWith 1#32).status.phase ≠ .busy ∧ (busyAt 5).status.phase = .busy ∧ small.Valid ∧
    StartsFrame (idleWith 1#32) 1 ∧ (idleWith 0#32).nReg.toInt ≤ 0 ∧
    (idleWith 2#32).nReg.toInt > ((idleWith 2#32).cfg.nMax : Int) ∧
    (small.nMax < 2 ∧ 23 < 24 * 1 ∧ 24 * 1 + 40 ≤ 64) :=
  ⟨by decide, by decide, by decide, ⟨by decide, by decide, by decide, by decide⟩, by decide, by decide, by decide⟩

/-- RdPmReturnsTheByte and WrPmStoresTheByte: the last byte of PM and the first index past it, a written and an unwritten
byte, in BUSY and outside. -/
theorem test_witness_pm :
    (179#29).toNat < State.reset.cfg.pmCapacity ∧ State.reset.cfg.pmCapacity ≤ (180#29).toNat ∧
    Memory.read State.reset.pm 179 = none ∧
    (2#29).toNat < (busyAt 5).cfg.pmCapacity ∧ Memory.read (busyAt 5).pm 2 = some 0x30#8 ∧
    (busyAt 5).cfg.pmCapacity ≤ (3#29).toNat ∧ (busyAt 5).status.phase = .busy := by decide

/-- RdTbReturnsTheByte and WrTbStoresTheByte: the last byte of TB and the first index past it. -/
theorem test_witness_tb :
    (1479#29).toNat < State.reset.cfg.tbCapacity ∧ State.reset.cfg.tbCapacity ≤ (1480#29).toNat ∧
    Memory.read State.reset.tb 1479 = none ∧ State.reset.status.phase ≠ .busy ∧
    (63#29).toNat < doneState.cfg.tbCapacity ∧ doneState.status.phase ≠ .busy ∧
    Memory.read doneState.tb 63 = some 0x00#8 ∧ doneState.cfg.tbCapacity ≤ (64#29).toNat ∧
    (busyAt 5).status.phase = .busy := by decide

/-- ExpandIsMostSignificantBitFirst and PixelIsGreenRedBlue at the ends of the positions (P24.6). -/
theorem test_witness_positions :
    small.Valid ∧ (expand8 small 0x80#8)[0]? = some 0x1F#8 ∧ (expand8 small 0x01#8)[7]? = some 0x1F#8 ∧
    (pixel24 small { r := 0x80#8, g := 0x00#8, b := 0x00#8 })[8]? = some 0x1F#8 ∧
    (pixel24 small { r := 0x00#8, g := 0x00#8, b := 0x01#8 })[23]? = some 0x1F#8 := by decide

/-- The two pixels of section 2.3. -/
def twoPixels : List Pixel := [{ r := 0x10#8, g := 0x20#8, b := 0x30#8 }, { r := 0xFF#8, g := 0x00#8, b := 0x80#8 }]

/-- FrameElements, FrameIndexDecode and FrameAlphabetIsClosed: the rows k = 11, 23, 24, 32, 47, 48 and 87 of the index
table of section 2.3. -/
theorem test_witness_frame :
    [11, 23, 24, 32, 47, 48, 87].map (fun k => (encodePixels small twoPixels)[k]?) =
      [some 0x1F#8, some 0x03#8, some 0x03#8, some 0x1F#8, some 0x03#8, some 0x00#8, some 0x00#8] ∧
    47 / 24 < twoPixels.length ∧ 24 * twoPixels.length ≤ 48 ∧ 87 < 24 * twoPixels.length + 40 := by decide

/-- FrameDeterminesThePixels: two pixels that differ have frames that differ, and a frame equals itself. -/
theorem test_witness_determines :
    small.Valid ∧ encodePixels small twoPixels = encodePixels small twoPixels ∧
    encodePixels small twoPixels ≠ encodePixels small (twoPixels.take 1) :=
  ⟨by decide, rfl, by decide⟩

/-- FunctionOperationsProduceTheirBytes: a sequence of one pixel. -/
theorem test_witness_functions :
    State.reset.cfg.Valid ∧ 1 ≤ (twoPixels.take 1).length ∧ ¬ 1 ≤ ([] : List Pixel).length := by decide

/-- TailZeroClearsItsByte: the first and the last byte of the tail of one pixel and of N_MAX pixels (B3 to B5). -/
theorem test_witness_tail :
    Config.reference.Valid ∧
    (1 ≤ 1 ∧ 1 ≤ Config.reference.nMax ∧ 24 * 1 ≤ 24 ∧ 24 < 24 * 1 + 40) ∧ (24 * 1 ≤ 63 ∧ 63 < 24 * 1 + 40) ∧
    (60 ≤ Config.reference.nMax ∧ 24 * 60 ≤ 1440 ∧ 24 * 60 ≤ 1479 ∧ 1479 < 24 * 60 + 40) := by decide

/-- EngineStepWritesOneSymbol: at the first byte of a pixel with its bytes written, inside one, and at the last byte. -/
theorem test_witness_engineStep :
    (busyAt 0).cfg.Valid ∧ (busyAt 5).cfg.Valid ∧ (busyAt 23).cfg.Valid ∧
    (busyAt 0).status.phase = .busy ∧ (busyAt 0).engK % 24 = 0 ∧
    Memory.read (busyAt 0).pm (3 * ((busyAt 0).engK / 24) + 1) = some 0x20#8 ∧
    (busyAt 5).status.phase = .busy ∧ (busyAt 5).engK % 24 ≠ 0 ∧ (busyAt 23).engK + 1 = 24 * (busyAt 23).engN := by
  decide

/-- A frame with 23 of its 24 symbols written is what FrameSoFar describes. -/
theorem test_frameSoFar : FrameSoFar (busyAt 23) := by
  intro _
  refine ⟨?_, ?_, ?_⟩ <;> decide

/-- StepKeepsFrameProgress and CompletionLeavesTheEncodedFrame: the step that completes the frame. -/
theorem test_witness_progress :
    (busyAt 23).Inv ∧ (busyAt 23).cfg.Valid ∧ FrameSoFar (busyAt 23) ∧ (busyAt 23).status.phase = .busy ∧
    ∃ t, step (busyAt 23) = .next t ∧ (t.faults == [] && t.status.phase == .done) = true :=
  ⟨test_busy_inv, by decide, test_frameSoFar, by decide, next_of _ (by decide)⟩

/-- AcceptedFrameIsEncoded, and the premises of FrameIsIndependentOfHistory for a state after power-on and one in DONE
with an overrun. -/
theorem test_witness_accepted :
    small.Valid ∧ (ignoreStart doneState).cfg.Valid ∧
    StartsFrame (idleWith 1#32) 1 ∧ StartsFrame (ignoreStart doneState) 1 ∧
    PixelsWritten (idleWith 1#32).pm 1 ∧
    (∀ a, a < 3 * 1 → Memory.read (ignoreStart doneState).pm a = Memory.read (idleWith 1#32).pm a) := by
  refine ⟨by decide, by decide, ⟨by decide, by decide, by decide, by decide⟩,
    ⟨by decide, by decide, by decide, by decide⟩, ?_, by decide⟩
  unfold PixelsWritten
  decide

/-- The frames of those two states are complete. -/
theorem test_witness_runFrame :
    (∃ t, runFrame (idleWith 1#32) = .next t ∧ (t.status.phase == .done) = true) ∧
    (∃ t, runFrame (ignoreStart doneState) = .next t ∧ (t.status.phase == .done) = true) :=
  ⟨next_of _ (by decide), next_of _ (by decide)⟩

/-- FinishedFrameStaysReadable: the frame in DONE, its last byte, and a reset. -/
theorem test_witness_finished :
    doneState.cfg.Valid ∧ doneState.status.phase ≠ .busy ∧
    HoldsFrame doneState [{ r := 0x10#8, g := 0x20#8, b := 0x30#8 }] ∧
    ((63#29).toNat < 24 * 1 + 40 ∧ (63#29).toNat < doneState.cfg.tbCapacity) ∧
    (∃ t, exec .reset doneState = .next t ∧ (t.status.phase != .busy) = true) ∧
    (∀ a d, Instr.reset ≠ .wrTb a d) ∧ (∀ n k, Instr.reset ≠ .tailZero n k) := by
  refine ⟨by decide, by decide, ?_, by decide, next_of _ (by decide), nofun, nofun⟩
  unfold HoldsFrame
  decide

/-- EngineFinishesOnItsOwn: one step before the end. -/
theorem test_witness_engineFinishes :
    (busyAt 23).Inv ∧ (busyAt 23).status.phase = .busy ∧ (busyAt 23).inputs = [] ∧
    0 < 24 * (busyAt 23).engN - (busyAt 23).engK :=
  ⟨test_busy_inv, by decide, by decide, by decide⟩

/-- ResetRestoresResetValues: in BUSY with a last frame byte, and outside. -/
theorem test_witness_reset :
    (busyAt 10).status.phase = .busy ∧ 63 < (busyAt 10).len.toNat ∧ ¬ 64 < (busyAt 10).len.toNat ∧
    doneState.status.phase ≠ .busy := by decide

/-- SessionCalls: outside a send; a Closed handle, no pixel, a negative count, and another handle than the closed one. -/
theorem test_witness_sessionCalls :
    State.reset.bus.job = none ∧ handleState State.reset.bus 0 = .closed ∧ argCount (.sequence []) ≤ 0 ∧
    argCount (.negative 0) ≤ 0 ∧ (1 : Int) ≠ 0 := by decide

/-- ClosedHandlesStayClosed: a Closed handle in a step that opens another, a close, and an open. -/
theorem test_witness_handles :
    (0 < twoHandles.handles.length ∧ handleState twoHandles 0 = .closed ∧
      ∃ t, step { State.reset with bus := twoHandles, inputs := [.call (.openPath true false)] } = .next t ∧
        (handleState t.bus 2 == .opened) = true) ∧
    handleState twoHandles 2 = .closed ∧ handleState twoHandles 1 = .opened ∧
    ∃ t, step { State.reset with bus := twoHandles, inputs := [.call (.closeHandle 1)] } = .next t ∧
      (handleState t.bus 1 == .closed) = true :=
  ⟨⟨by decide, by decide, next_of _ (by decide)⟩, by decide, by decide, next_of _ (by decide)⟩

/-- OneWholeTransferEndsASend: the step that makes the transfer. -/
theorem test_witness_oneTransfer :
    collected.Inv ∧ ∃ t, step collected = .next t ∧
      (t.bus.transfers.length == 1 && t.bus.result == some (.sent 64)) = true :=
  ⟨test_done_inv, next_of _ (by decide)⟩

/-- `s` with handle 0 Open and a call of `send` on it as its only input. -/
def calling (s : State) (pixels : List Pixel) : State :=
  { s with
    bus := { Bus.initial with handles := [.opened] }
    inputs := [.call (.sendPixels 0 (.sequence pixels) (.transferred 64))] }

theorem test_calling_inv (pixels : List Pixel) : (calling State.reset pixels).Inv where
  cfg_valid := test_reset_inv.cfg_valid
  pm_wf := List.Pairwise.nil
  tb_wf := List.Pairwise.nil
  pm_below := nofun
  tb_below := nofun
  faults_nodup := List.nodup_nil
  idle := fun _ => ⟨rfl, rfl, rfl⟩
  busy := nofun
  done := nofun
  error := nofun
  ovr := nofun
  engN_le := Nat.zero_le _
  engK_le := Nat.zero_le _
  frame_defined := by rintro (h | h) <;> cases h
  job_ok := nofun
  job_open := nofun

/-- SendTransfersTheEncodedFrame: one pixel, and N_MAX = 60 pixels. -/
theorem test_witness_send :
    (∀ ps, (calling State.reset ps).Inv ∧ (calling State.reset ps).status.phase ≠ .busy ∧
      handleState (calling State.reset ps).bus 0 = .opened ∧ (calling State.reset ps).bus.job = none ∧
      (calling State.reset ps).inputs = [.call (.sendPixels 0 (.sequence ps) (.transferred 64))]) ∧
    1 ≤ (List.replicate 1 (pixelAt [] 0)).length ∧
    (List.replicate 60 (pixelAt [] 0)).length ≤ State.reset.cfg.nMax :=
  ⟨fun ps => ⟨test_calling_inv ps, nofun, rfl, rfl, rfl⟩, by decide, by decide⟩

/-- OversizedSendReturnsAllocationFailure: 61 pixels. -/
theorem test_witness_oversized :
    (calling State.reset (List.replicate 61 (pixelAt [] 0))).Inv ∧
    (calling State.reset (List.replicate 61 (pixelAt [] 0))).cfg.nMax < (List.replicate 61 (pixelAt [] 0)).length :=
  ⟨test_calling_inv _, by decide⟩

/-- SymbolPulsesNeverMerge: the first clear bits above the runs of `0x1F` and `0x03`. SymbolPulsesNeverMerge and
WireDurations: the reference configuration. -/
theorem test_witness_pulses :
    Config.reference.Valid ∧ (sym Config.reference true).getLsbD 4 = true ∧
    (sym Config.reference true).getLsbD 5 = false ∧
    (sym Config.reference false).getLsbD 1 = true ∧ (sym Config.reference false).getLsbD 2 = false := by decide

end Sys2Proof.Tests
end

section
/-! PROOFS. Scope (00_scope.md): which turn the inputs of a state choose, what each turn does by phase, and the steps
of the engine and of the reset input. -/

namespace Sys2Proof.Machine

/-! ### The turn that the inputs choose (R7, R63) -/

@[simp] theorem step_engine_input (s : State) (rest : List Input) :
    step { s with inputs := .engine :: rest } = engineTurn { s with inputs := rest } := rfl

@[simp] theorem step_reset_input (s : State) (rest : List Input) :
    step { s with inputs := .reset :: rest } = exec .reset { s with inputs := rest } := rfl

theorem step_of_no_input {s : State} (h : s.inputs = []) : step s = unpromptedTurn s := by
  simp only [step, takeTurn, h]

/-! ### The turns by phase (R28, R116) -/

theorem engineTurn_of_busy {s : State} (h : s.status.phase = .busy) : engineTurn s = exec .engineStep s :=
  if_pos h

theorem engineTurn_of_not_busy {s : State} (h : s.status.phase ≠ .busy) : engineTurn s = .next s :=
  if_neg h

theorem sessionTurn_of_no_job {s : State} (h : s.bus.job = none) : sessionTurn s = .next s := by
  simp only [sessionTurn, h]

theorem unpromptedTurn_of_busy {s : State} (h : s.status.phase = .busy) : unpromptedTurn s = engineTurn s :=
  if_pos h

theorem unpromptedTurn_of_not_busy {s : State} (h : s.status.phase ≠ .busy) : unpromptedTurn s = sessionTurn s :=
  if_neg h

/-! ### Steps with nothing asked for (log 4) -/

theorem step_unprompted_busy {s : State} (hin : s.inputs = []) (hb : s.status.phase = .busy) :
    step s = exec .engineStep s := by
  rw [step_of_no_input hin, unpromptedTurn_of_busy hb, engineTurn_of_busy hb]

theorem step_unprompted_rests {s : State} (hin : s.inputs = []) (hb : s.status.phase ≠ .busy)
    (hj : s.bus.job = none) : step s = .next s := by
  rw [step_of_no_input hin, unpromptedTurn_of_not_busy hb, sessionTurn_of_no_job hj]

/-- Settles O7: the input chooses the turn, and the phase decides what the turn does. -/
theorem engineAndResetTurns : Obligations.EngineAndResetTurns := by
  intro s rest
  refine ⟨fun hb => ?_, fun hb => ?_, step_reset_input s rest, step_unprompted_busy, step_unprompted_rests⟩
  · rw [step_engine_input]
    exact engineTurn_of_busy hb
  · rw [step_engine_input]
    exact engineTurn_of_not_busy hb

end Sys2Proof.Machine
end

section
/-! PROOFS. State (10_state.md): what each operation changes of the block, said once; that no step changes the
configuration; which operations change the phase, the latched count and `LEN`. -/

namespace Sys2Proof.Machine

/-! ### What an engine step leaves (R116) -/

@[simp] theorem advanceEngine_cfg (s : State) : (advanceEngine s).cfg = s.cfg := by
  simp [advanceEngine]
@[simp] theorem advanceEngine_len (s : State) : (advanceEngine s).len = s.len := by
  simp [advanceEngine]
@[simp] theorem advanceEngine_engN (s : State) : (advanceEngine s).engN = s.engN := by
  simp [advanceEngine]
@[simp] theorem advanceEngine_pm (s : State) : (advanceEngine s).pm = s.pm := by
  simp [advanceEngine]
@[simp] theorem advanceEngine_inputs (s : State) : (advanceEngine s).inputs = s.inputs := by
  simp [advanceEngine]
@[simp] theorem advanceEngine_bus (s : State) : (advanceEngine s).bus = s.bus := by
  simp [advanceEngine]
@[simp] theorem advanceEngine_engK (s : State) : (advanceEngine s).engK = s.engK + 1 := by
  simp [advanceEngine]

/-! ### Everything an operation can change -/

/-- The block, the inputs and the Bus Session are the same in both states; `RDATA`, the produced bytes and the number
of draws may differ. -/
def SameMachine (s t : State) : Prop := SameBlock s t ∧ SameOutside s t

theorem SameMachine.refl (s : State) : SameMachine s s :=
  ⟨⟨rfl, rfl, rfl, rfl, rfl, rfl, rfl, rfl, rfl, rfl⟩, rfl, rfl⟩

theorem respond_sameMachine (s : State) (r : Option Word) : SameMachine s (respond s r) := SameMachine.refl s

theorem produce_sameMachine (s : State) (l : List Byte) : SameMachine s (produce s l) := SameMachine.refl s

theorem respondByte_sameMachine (s : State) (v : Option Byte) : SameMachine s (respondByte s v) := by
  cases v with
  | none => exact SameMachine.refl s
  | some v => exact SameMachine.refl s

/-- A `CTRL` write that requests a START (R76, R127). -/
def RequestsStart (i : Instr) : Prop := ∃ v, i = .wrCtrl v ∧ v.getLsbD 0 = true

/-- `Update i s u`: before it answers, operation `i` takes the block from `s` to `u`. -/
inductive Update : Instr → State → State → Prop
  | nothing (i : Instr) (s : State) : Update i s s
  /-- R125. -/
  | setsCount (v : Word) (s : State) : Update (.wrNreg v) s { s with nReg := v }
  /-- R113. -/
  | ignoresStart {i : Instr} {s : State} (hi : RequestsStart i ∨ i = .startIgnore) (hb : s.status.phase = .busy) :
      Update i s (ignoreStart s)
  /-- R114. -/
  | rejectsStart {i : Instr} {s : State} {e : Err} (hi : RequestsStart i ∨ i = .startReject)
      (hb : s.status.phase ≠ .busy) (he : e ≠ .none) : Update i s (reportError s e)
  /-- R115. -/
  | acceptsStart {i : Instr} {s : State} {n : Nat} (hi : RequestsStart i ∨ i = .startAccept)
      (hb : s.status.phase ≠ .busy) (hn : 1 ≤ n) (hl : frameLen s.cfg n ≤ s.cfg.tbCapacity) :
      Update i s (acceptStart s n)
  /-- R135. -/
  | storesPm (a : Index) (d : Byte) (s : State) :
      Update (.wrPm a d) s (storePm (faultIfBusy s (.pmWriteBusy a.toNat)) a.toNat d)
  /-- R137. -/
  | storesTb (a : Index) (d : Byte) (s : State) :
      Update (.wrTb a d) s (storeTb (faultIfBusy s (.tbWriteBusy a.toNat)) a.toNat d)
  /-- R97. -/
  | zeroesTail {n k : Nat} {s : State} (hn : n ≤ s.cfg.nMax) (hk : inTail s.cfg n k = true) :
      Update (.tailZero n k) s (zeroTail s k)
  /-- R116. -/
  | advances {s : State} (hb : s.status.phase = .busy) : Update .engineStep s (advanceEngine s)
  /-- R177. -/
  | resets (s : State) : Update .reset s (applyReset (abortFrame s))

theorem next_inj {u t : State} (h : (.next u : Result) = .next t) : t = u := by
  injection h with h
  exact h.symm

/-- A START request makes one of the three updates of R112. -/
theorem startRequest_update {i : Instr} (s : State) (hi : RequestsStart i) : Update i s (startRequest s) := by
  rcases startRequest_cases s with ⟨hb, h⟩ | ⟨e, hb, he, h⟩ | ⟨n, hb, -, hn, hl, h⟩ <;> rw [h]
  · exact .ignoresStart (.inl hi) hb
  · exact .rejectsStart (.inl hi) hb he
  · exact .acceptsStart (.inl hi) hb hn hl

theorem execStartIgnore_cases {s t : State} (h : execStartIgnore s = .next t) :
    s.status.phase = .busy ∧ t = ignoreStart s := by
  unfold execStartIgnore at h
  split at h
  · exact ⟨startOutcome_eq_ignore.1 ‹_›, next_inj h⟩
  · cases h
  · cases h

theorem execStartReject_cases {s t : State} (h : execStartReject s = .next t) :
    ∃ e, s.status.phase ≠ .busy ∧ e ≠ Err.none ∧ t = reportError s e := by
  unfold execStartReject at h
  split at h
  · obtain ⟨hb, he⟩ := startOutcome_reject_ne_none ‹_›
    exact ⟨_, hb, he, next_inj h⟩
  · cases h
  · cases h

theorem execStartAccept_cases {s t : State} (h : execStartAccept s = .next t) :
    ∃ n, s.status.phase ≠ .busy ∧ 1 ≤ n ∧ frameLen s.cfg n ≤ s.cfg.tbCapacity ∧ t = acceptStart s n := by
  unfold execStartAccept at h
  split at h
  · obtain ⟨hb, -, hn, hl⟩ := startOutcome_eq_accept.1 ‹_›
    exact ⟨_, hb, hn, hl, next_inj h⟩
  · cases h
  · cases h

theorem execTailZero_cases {n k : Nat} {s t : State} (h : execTailZero n k s = .next t) :
    n ≤ s.cfg.nMax ∧ inTail s.cfg n k = true ∧ t = produce (zeroTail s k) [Config.tailByte] := by
  unfold execTailZero at h
  split at h
  · rename_i hc
    simp only [Bool.and_eq_true, decide_eq_true_eq] at hc
    exact ⟨hc.1.2, hc.2, next_inj h⟩
  · cases h

theorem execEngineStep_cases {s t : State} (h : execEngineStep s = .next t) :
    s.status.phase = .busy ∧ t = advanceEngine s := by
  unfold execEngineStep at h
  split at h
  · exact ⟨‹_›, next_inj h⟩
  · cases h

/-- The inversion of `exec`: an operation that answers made one of the updates, and its answer leaves the block, the
inputs and the Bus Session alone. -/
theorem exec_cases {i : Instr} {s t : State} (h : exec i s = .next t) : ∃ u, Update i s u ∧ SameMachine u t := by
  have nothing (h : SameMachine s t) : ∃ u, Update i s u ∧ SameMachine u t := ⟨s, .nothing i s, h⟩
  cases i with
  | rdNreg | rdCtrl | rdStatus | wrStatus v | rdLen | wrLen v | rdRsvreg i1 | wrRsvreg i1 v | rdRsvsp a
  | wrRsvsp a v =>
    obtain rfl := next_inj h
    exact nothing (respond_sameMachine _ _)
  | symHigh | symLow | expand8 v | pixel24 px =>
    obtain rfl := next_inj h
    exact nothing (produce_sameMachine _ _)
  | wrNreg v =>
    obtain rfl := next_inj h
    exact ⟨_, .setsCount v s, respond_sameMachine _ _⟩
  | wrCtrl v =>
    simp only [exec, execWrCtrl] at h
    split at h <;> obtain rfl := next_inj h
    · exact ⟨_, startRequest_update s ⟨v, rfl, ‹_›⟩, respond_sameMachine _ _⟩
    · exact nothing (respond_sameMachine _ _)
  | rdPm a =>
    simp only [exec, execRdPm] at h
    split at h <;> obtain rfl := next_inj h
    · exact nothing (respond_sameMachine _ _)
    · exact nothing (respondByte_sameMachine _ _)
  | wrPm a d =>
    obtain rfl := next_inj h
    exact ⟨_, .storesPm a d s, respond_sameMachine _ _⟩
  | rdTb a =>
    simp only [exec, execRdTb] at h
    split at h
    · obtain rfl := next_inj h
      exact nothing (respond_sameMachine _ _)
    · split at h <;> obtain rfl := next_inj h <;> exact nothing (respondByte_sameMachine _ _)
  | wrTb a d =>
    obtain rfl := next_inj h
    exact ⟨_, .storesTb a d s, respond_sameMachine _ _⟩
  | tailZero n k =>
    obtain ⟨hn, hk, rfl⟩ := execTailZero_cases h
    exact ⟨_, .zeroesTail hn hk, produce_sameMachine _ _⟩
  | encode pixels =>
    simp only [exec, execEncode] at h
    split at h
    · obtain rfl := next_inj h
      exact nothing (produce_sameMachine _ _)
    · cases h
  | startIgnore =>
    obtain ⟨hb, rfl⟩ := execStartIgnore_cases h
    exact ⟨_, .ignoresStart (.inr rfl) hb, .refl _⟩
  | startReject =>
    obtain ⟨e, hb, he, rfl⟩ := execStartReject_cases h
    exact ⟨_, .rejectsStart (.inr rfl) hb he, .refl _⟩
  | startAccept =>
    obtain ⟨n, hb, hn, hl, rfl⟩ := execStartAccept_cases h
    exact ⟨_, .acceptsStart (.inr rfl) hb hn hl, .refl _⟩
  | engineStep =>
    obtain ⟨hb, rfl⟩ := execEngineStep_cases h
    exact ⟨_, .advances hb, .refl _⟩
  | reset =>
    obtain rfl := next_inj h
    exact ⟨_, .resets s, .refl _⟩

/-! ### The configuration and the outside (R21, R140) -/

theorem Update.cfg {i : Instr} {s u : State} (h : Update i s u) : u.cfg = s.cfg := by
  cases h <;> simp

theorem Update.sameOutside {i : Instr} {s u : State} (h : Update i s u) : SameOutside s u := by
  cases h <;> simp [SameOutside]

theorem exec_cfg {i : Instr} {s t : State} (h : exec i s = .next t) : t.cfg = s.cfg := by
  obtain ⟨u, hu, ⟨hcfg, -⟩, -⟩ := exec_cases h
  rw [hcfg, hu.cfg]

theorem exec_sameOutside {i : Instr} {s t : State} (h : exec i s = .next t) : SameOutside s t := by
  obtain ⟨u, hu, -, hin, hbus⟩ := exec_cases h
  obtain ⟨hin', hbus'⟩ := hu.sameOutside
  exact ⟨hin.trans hin', hbus.trans hbus'⟩

theorem SessionMoves.cfg {s t : State} (h : SessionMoves s t) : t.cfg = s.cfg := by
  obtain ⟨j, w, u, -, -, hu, rfl⟩ | ⟨j, -, -, rfl⟩ | ⟨-, rfl⟩ := h
  · exact (exec_cfg hu :)
  · rfl
  · rfl

theorem Moves.cfg {x : Option Input} {u t : State} (h : Moves x u t) : t.cfg = u.cfg := by
  obtain ⟨i, -, h⟩ | h | ⟨c, -, -, rfl⟩ | rfl := h
  · exact exec_cfg h
  · exact h.cfg
  · rfl
  · rfl

/-- Settles O18: every move keeps the configuration. -/
theorem configurationNeverChanges : Obligations.ConfigurationNeverChanges := by
  intro s t h
  obtain ⟨x, rest, -, hm⟩ := step_cases h
  exact hm.cfg

/-! ### The phase, the latched count and `LEN` -/

/-- The engine step completes the frame exactly where it writes its last pixel byte (R117). -/
theorem advanceEngine_status {s : State} (h : s.cfg.Valid) :
    (advanceEngine s).status = if s.engK + 1 = 24 * s.engN then statusDone s.status else s.status := by
  rw [advanceEngine, completeIfLast_status (by simpa using h)]
  simp

/-- Settles O20: of the updates only a reset, the completing engine step, a rejection and an acceptance touch the
phase. -/
theorem phaseTransitions : Obligations.PhaseTransitions := by
  intro i s t hc h hne
  obtain ⟨u, hu, ⟨-, -, hst, -⟩, -⟩ := exec_cases h
  rw [hst] at hne ⊢
  cases hu with
  | nothing | setsCount v | ignoresStart hi hb | storesPm a d | storesTb a d | zeroesTail hn hk =>
    exact absurd (by simp [statusOverrun]) hne
  | rejectsStart hi hb he => exact .inr (.inr (.inr ⟨hi, hb, rfl⟩))
  | acceptsStart hi hb hn hl => exact .inr (.inr (.inl ⟨hi, hb, rfl⟩))
  | advances hb =>
    rw [advanceEngine_status hc] at hne ⊢
    split at hne
    · rename_i hk
      rw [if_pos hk]
      exact .inr (.inl ⟨rfl, hb, rfl, hk⟩)
    · exact absurd rfl hne
  | resets => exact .inl ⟨rfl, rfl⟩

/-- Settles O21: in BUSY a START request is ignored, and no other operation but a reset writes `eng.n` or `LEN`. -/
theorem countIsLatchedInBusy : Obligations.CountIsLatchedInBusy := by
  intro i s t hbusy hne h
  obtain ⟨u, hu, ⟨-, -, -, hlen, -, hengN, -⟩, -⟩ := exec_cases h
  rw [hlen, hengN]
  cases hu with
  | nothing | setsCount v | ignoresStart hi hb | storesPm a d | storesTb a d | zeroesTail hn hk | advances hb =>
    exact ⟨by simp, by simp⟩
  | rejectsStart hi hb he => exact absurd hbusy hb
  | acceptsStart hi hb hn hl => exact absurd hbusy hb
  | resets => exact absurd rfl hne

end Sys2Proof.Machine
end

section
/-! PROOFS. The state invariant of R40: it holds at power-on, every update of the block keeps it, the Bus Session keeps
its clauses on the send in progress, and so every step keeps it. -/

namespace Sys2Proof.Machine

/-! ### Power-on (R42, R43) -/

theorem State.powerOn_inv {c : Config} (h : c.Valid) : (State.powerOn c).Inv where
  cfg_valid := h
  pm_wf := .nil
  tb_wf := .nil
  pm_below := nofun
  tb_below := nofun
  faults_nodup := .nil
  idle _ := ⟨rfl, rfl, rfl⟩
  busy := nofun
  done := nofun
  error := nofun
  ovr := nofun
  engN_le := Nat.zero_le _
  engK_le := Nat.le_refl 0
  frame_defined := nofun
  job_ok := nofun
  job_open := nofun

/-- Settles O12: `State.reset` is the power-on state of the reference configuration, which is an allowed one. -/
theorem powerOnMeetsInvariant : Obligations.PowerOnMeetsInvariant :=
  ⟨fun _ => State.powerOn_inv, State.powerOn_inv (Config.build_valid (by decide) (by decide))⟩

theorem statusWord_statusIdle : statusWord statusIdle = 0#32 := by decide

/-- Settles O13: each field has the value that `State.powerOn` names. -/
theorem powerOnState : Obligations.PowerOnState := by
  rintro c - s rfl
  exact ⟨rfl, rfl, statusWord_statusIdle, rfl, rfl, rfl, rfl, rfl, rfl, rfl,
    fun a => ⟨Memory.read_nil a, Memory.read_nil a⟩⟩

/-! ### What the invariant says of sizes -/

theorem Memory.isSome_read_write {m : Memory} {a b : Nat} (d : Byte) (h : (Memory.read m b).isSome = true) :
    (Memory.read (Memory.write m a d) b).isSome = true := by
  rw [Memory.read_write]
  split
  · rfl
  · exact h

/-- A frame of at most `N_MAX` pixels lies inside TB (R11). -/
theorem frame_within_tb {c : Config} (h : c.Valid) {n k : Nat} (hn : n ≤ c.nMax) (hk : k < 24 * n + 40) :
    k < c.tbCapacity := by
  have := (frameLen_le_iff h n).2 hn
  rw [frameLen_of_valid h] at this
  omega

/-! ### The invariant under each part of an update -/

namespace State.Inv

/-- The invariant says nothing of `RDATA`, the produced bytes and the draws. -/
theorem of_sameMachine {s t : State} (h : s.Inv) (hst : SameMachine s t) : t.Inv := by
  cases s
  cases t
  obtain ⟨⟨rfl, rfl, rfl, rfl, rfl, rfl, rfl, rfl, rfl, rfl⟩, rfl, rfl⟩ := hst
  exact { h with }

theorem setCount {s : State} (v : Word) (h : s.Inv) : State.Inv { s with nReg := v } := { h with }

theorem setInputs {s : State} (l : List Input) (h : s.Inv) : State.Inv { s with inputs := l } := { h with }

theorem setBus {s : State} {b : Bus} (h : s.Inv) (hok : ∀ j, b.job = some j → j.Ok)
    (hopen : ∀ j, b.job = some j → handleState b j.handle = .opened) : State.Inv { s with bus := b } :=
  { h with job_ok := hok, job_open := hopen }

theorem countDraw {s : State} (h : s.Inv) : (countDraw s).Inv := { h with }

theorem recordFault {s : State} (f : Fault) (h : s.Inv) : (recordFault s f).Inv := by
  have hnd := recordFault_nodup f h.faults_nodup
  unfold Machine.recordFault at hnd ⊢
  split
  · exact h
  · rw [if_neg ‹_›] at hnd
    exact { h with faults_nodup := hnd }

theorem faultIfBusy {s : State} (f : Fault) (h : s.Inv) : (faultIfBusy s f).Inv := by
  unfold Machine.faultIfBusy
  split
  · exact h.recordFault f
  · exact h

/-- A TB write below the capacity: a byte with a value keeps one. -/
theorem writeTb {s : State} {a : Nat} (d : Byte) (ha : a < s.cfg.tbCapacity) (h : s.Inv) :
    State.Inv { s with tb := Memory.write s.tb a d } :=
  { h with
    tb_wf := Memory.write_wf a d h.tb_wf
    tb_below := Memory.write_below d ha h.tb_below
    frame_defined := fun hp b hb => Memory.isSome_read_write d (h.frame_defined hp b hb) }

theorem storePm {s : State} (a : Nat) (d : Byte) (h : s.Inv) : (storePm s a d).Inv := by
  unfold Machine.storePm
  split
  · exact h
  · exact { h with
      pm_wf := Memory.write_wf a d h.pm_wf
      pm_below := Memory.write_below d (Nat.lt_of_not_le ‹_›) h.pm_below }

theorem storeTb {s : State} (a : Nat) (d : Byte) (h : s.Inv) : (storeTb s a d).Inv := by
  unfold Machine.storeTb
  split
  · exact h
  · exact h.writeTb d (by omega)

theorem zeroTail {s : State} {n k : Nat} (hn : n ≤ s.cfg.nMax) (hk : inTail s.cfg n k = true) (h : s.Inv) :
    (zeroTail s k).Inv :=
  h.writeTb _ (frame_within_tb h.cfg_valid hn ((inTail_iff h.cfg_valid n k).1 hk).2)

/-! ### START (R112 to R115) -/

theorem ignoreStart {s : State} (hb : s.status.phase = .busy) (h : s.Inv) : (ignoreStart s).Inv :=
  { h with ovr := fun _ => .inl hb }

theorem reportError {s : State} {e : Err} (he : e ≠ .none) (h : s.Inv) : (reportError s e).Inv :=
  { h with
    idle := nofun
    busy := nofun
    done := nofun
    error := fun _ => ⟨he, rfl⟩
    ovr := nofun
    frame_defined := nofun }

theorem acceptStart {s : State} {n : Nat} (hn : 1 ≤ n) (hl : frameLen s.cfg n ≤ s.cfg.tbCapacity) (h : s.Inv) :
    (acceptStart s n).Inv :=
  have hlen := frameLen_of_valid h.cfg_valid n
  { h with
    tb_wf := Memory.zeroFirst_wf _ h.tb_wf
    tb_below := Memory.zeroFirst_below hl h.tb_below
    idle := nofun
    busy := fun _ => ⟨rfl, hn, by simp only [acceptStart_engK, acceptStart_engN]; omega, by simp [hlen]⟩
    done := nofun
    error := nofun
    ovr := nofun
    engN_le := (frameLen_le_iff h.cfg_valid n).1 hl
    engK_le := Nat.zero_le _
    frame_defined := fun _ a ha => by
      rw [acceptStart_tb, Memory.read_zeroFirst, if_pos (by simpa [hlen] using ha)]
      rfl }

/-! ### The engine step (R116, R117) -/

theorem recordLoad {s : State} (a : Nat) (h : s.Inv) : (recordLoad s a).Inv := by
  unfold Machine.recordLoad
  split
  · exact h
  · exact (h.recordFault _).countDraw

theorem latchIfFirst {s : State} (h : s.Inv) : (latchIfFirst s).Inv := by
  unfold Machine.latchIfFirst
  split
  · exact { ((h.recordLoad _).recordLoad _).recordLoad _ with }
  · exact h

/-- The symbol write and the completion together: between them BUSY may stand at `eng.k = 24 eng.n`. -/
theorem completeWrite {s : State} (hb : s.status.phase = .busy) (h : s.Inv) :
    (completeIfLast (writeSymbol s)).Inv := by
  obtain ⟨herr, hn, hk, hlen⟩ := h.busy hb
  have hcap : s.engK < s.cfg.tbCapacity := frame_within_tb h.cfg_valid h.engN_le (by omega)
  have hw : State.Inv { s with tb := (writeSymbol s).tb } := h.writeTb _ hcap
  rw [completeIfLast_eq (s := writeSymbol s) h.cfg_valid]
  split <;> rename_i hlast <;> simp only [writeSymbol_engK, writeSymbol_engN] at hlast
  · exact { hw with
      idle := nofun
      busy := nofun
      done := fun _ => ⟨herr, hn, hlast, hlen⟩
      error := nofun
      ovr := fun _ => .inr rfl
      engK_le := hlast.le
      frame_defined := fun _ => hw.frame_defined (.inl hb) }
  · exact { hw with
      idle := fun hp => absurd (hb.symm.trans hp) nofun
      busy := fun _ => ⟨herr, hn, by simp only [writeSymbol_engK, writeSymbol_engN]; omega, hlen⟩
      done := fun hp => absurd (hb.symm.trans hp) nofun
      engK_le := by simp only [writeSymbol_engK, writeSymbol_engN]; omega }

theorem advanceEngine {s : State} (hb : s.status.phase = .busy) (h : s.Inv) : (advanceEngine s).Inv :=
  h.latchIfFirst.completeWrite (by simpa using hb)

/-! ### Reset (R177, R178) -/

theorem applyReset_abortFrame {s : State} (h : s.Inv) : (applyReset (abortFrame s)).Inv := by
  have hwf : (abortFrame s).tb.wf := by
    rw [abortFrame_tb]
    split
    · exact Memory.forgetFirst_wf _ h.tb_wf
    · exact h.tb_wf
  have hbelow : (abortFrame s).tb.below s.cfg.tbCapacity := by
    rw [abortFrame_tb]
    split
    · exact Memory.forgetFirst_below _ h.tb_below
    · exact h.tb_below
  exact {
    cfg_valid := by simpa using h.cfg_valid
    pm_wf := by simpa using h.pm_wf
    tb_wf := hwf
    pm_below := by simpa using h.pm_below
    tb_below := by simpa using hbelow
    faults_nodup := by simpa using h.faults_nodup
    idle := fun _ => ⟨rfl, rfl, rfl⟩
    busy := nofun
    done := nofun
    error := nofun
    ovr := nofun
    engN_le := Nat.zero_le _
    engK_le := Nat.le_refl 0
    frame_defined := nofun
    job_ok := by simpa using h.job_ok
    job_open := by simpa using h.job_open }

end State.Inv

/-! ### Every operation keeps the invariant -/

theorem Update.inv {i : Instr} {s u : State} (hu : Update i s u) (h : s.Inv) : u.Inv := by
  cases hu with
  | nothing => exact h
  | setsCount v => exact h.setCount v
  | ignoresStart hi hb => exact h.ignoreStart hb
  | rejectsStart hi hb he => exact h.reportError he
  | acceptsStart hi hb hn hl => exact h.acceptStart hn hl
  | storesPm a d => exact (h.faultIfBusy _).storePm _ _
  | storesTb a d => exact (h.faultIfBusy _).storeTb _ _
  | zeroesTail hn hk => exact h.zeroTail hn hk
  | advances hb => exact h.advanceEngine hb
  | resets => exact h.applyReset_abortFrame

theorem exec_inv {i : Instr} {s t : State} (h : s.Inv) (he : exec i s = .next t) : t.Inv := by
  obtain ⟨u, hu, hsame⟩ := exec_cases he
  exact (hu.inv h).of_sameMachine hsame

/-! ### The send in progress (R141, R145) -/

theorem pixelBytes_length (pixels : List Pixel) : (pixelBytes pixels).length = 3 * pixels.length := by
  rw [pixelBytes, List.length_flatMap]
  simp [Nat.mul_comm]

theorem afterPoll_job {b : Bus} {j j' : Job} {r : Word} (h : (afterPoll b j r).job = some j') :
    j'.Ok ∧ j'.handle = j.handle := by
  unfold afterPoll at h
  split at h
  · cases h
    exact ⟨trivial, rfl⟩
  · split at h
    · cases h
    · split at h <;> cases h
      exact ⟨trivial, rfl⟩

/-- A response leaves the send at a place of the host program, on the same handle, or ends it (R145). -/
theorem afterResponse_job {b : Bus} {j j' : Job} {w : Htw} {r : Word} (hw : nextWord j = some w)
    (h : (afterResponse b j r).job = some j') : j'.Ok ∧ j'.handle = j.handle := by
  cases hst : j.stage with
  | load i =>
    simp only [afterResponse, hst, pixelBytes_length] at h
    split at h <;> cases h
    · exact ⟨‹_›, rfl⟩
    · exact ⟨trivial, rfl⟩
  | setCount | start =>
    simp only [afterResponse, hst] at h
    cases h
    exact ⟨trivial, rfl⟩
  | poll =>
    simp only [afterResponse, hst] at h
    exact afterPoll_job h
  | readLen =>
    simp only [afterResponse, hst] at h
    cases h
    exact ⟨Nat.zero_le _, rfl⟩
  | dump len buf =>
    simp only [afterResponse, hst] at h
    simp only [nextWord, hst, Option.ite_none_right_eq_some] at hw
    cases h
    exact ⟨by simpa [Job.Ok] using hw.1, rfl⟩

/-- With all bytes collected, the transfer ends the send (R146, R147). -/
theorem transferFrame_job {b : Bus} {j : Job} (c : Config) (h : nextWord j = none) :
    (transferFrame c b j).job = none := by
  cases hst : j.stage with
  | load i | setCount | start | poll | readLen => simp only [nextWord, hst, reduceCtorEq] at h
  | dump len buf => simp only [transferFrame, hst]

theorem handle_opened_of_ne_closed {x : Handle} (h : x ≠ .closed) : x = .opened := by
  cases x with
  | closed => exact absurd rfl h
  | opened => rfl

/-- A count that is positive comes from a Pixel Sequence of that length (R144, R173). -/
theorem argPixels_length_pos {arg : PixelArg} (h : ¬ argCount arg ≤ 0) : 0 < (argPixels arg).length := by
  cases arg with
  | sequence pixels =>
    simp only [argCount, argPixels] at h ⊢
    omega
  | negative k =>
    simp only [argCount] at h
    omega

/-- A call begins at most one send, at its first byte and on an Open handle (R144). -/
theorem beginCall_job {b : Bus} {c : Call} {j : Job} (hb : b.job = none) (h : (beginCall b c).job = some j) :
    j.Ok ∧ handleState (beginCall b c) j.handle = .opened := by
  cases c with
  | openPath ok x => cases ok <;> exact absurd (hb.symm.trans h) nofun
  | closeHandle i => exact absurd (hb.symm.trans h) nofun
  | sendPixels i arg a =>
    simp only [beginCall, beginSend] at h ⊢
    split at h
    · exact absurd (hb.symm.trans h) nofun
    · rename_i hc
      obtain ⟨hopen, hcount⟩ := not_or.1 hc
      cases h
      rw [if_neg hc]
      exact ⟨Nat.mul_pos (by decide) (argPixels_length_pos hcount), handle_opened_of_ne_closed hopen⟩

/-! ### Every step keeps the invariant -/

theorem SessionMoves.inv {s t : State} (h : s.Inv) (hm : SessionMoves s t) : t.Inv := by
  obtain ⟨j, w, u, hj, hw, hu, rfl⟩ | ⟨j, hj, hw, rfl⟩ | ⟨-, rfl⟩ := hm
  · have hbus : u.bus = s.bus := (exec_sameOutside hu).2
    refine (exec_inv h hu).setBus (fun j' h' => (afterResponse_job hw h').1) (fun j' h' => ?_)
    rw [(afterResponse_job hw h').2, handleState_congr (afterResponse_handles _ _ _), hbus]
    exact h.job_open j hj
  · have hnone := transferFrame_job (b := s.bus) s.cfg hw
    exact h.setBus (by simp [hnone]) (by simp [hnone])
  · exact h

theorem Moves.inv {x : Option Input} {u t : State} (h : u.Inv) (hm : Moves x u t) : t.Inv := by
  obtain ⟨i, -, he⟩ | hs | ⟨c, -, hj, rfl⟩ | rfl := hm
  · exact exec_inv h he
  · exact hs.inv h
  · exact h.setBus (fun j h' => (beginCall_job hj h').1) (fun j h' => (beginCall_job hj h').2)
  · exact h

/-- Settles O11: taking an input keeps the invariant, and so does every move. -/
theorem stepKeepsInvariant : Obligations.StepKeepsInvariant := by
  intro s t h hstep
  obtain ⟨x, rest, -, hm⟩ := step_cases hstep
  exact hm.inv (h.setInputs rest)

end Sys2Proof.Machine
end

section
/-! PROOFS. State (10_state.md R44, R120): how far an accepted frame has got after each engine step, and that its bytes
depend on the pixel count and the pixels in PM only. -/

namespace Sys2Proof.Machine

/-! ### The latch and the frame written so far (R116, R118) -/

/-- What R118 says of the engine's progress, in any phase. -/
def WrittenUpTo (s : State) : Prop :=
  (∀ a, a < s.engK → Memory.read s.tb a = some (symbolAt s.cfg (pixelAt s.pm (pixelIndex s.cfg a)) a)) ∧
  (∀ a, s.engK ≤ a → a < 24 * s.engN + 40 → Memory.read s.tb a = some 0x00#8) ∧
  (s.engK % 24 ≠ 0 → s.engPx = pixelAt s.pm (pixelIndex s.cfg s.engK))

theorem frameSoFar_iff (s : State) : FrameSoFar s ↔ (s.status.phase = .busy → WrittenUpTo s) := Iff.rfl

theorem acceptStart_writtenUpTo {s : State} (n : Nat) (h : s.cfg.Valid) : WrittenUpTo (acceptStart s n) := by
  refine ⟨fun a ha => absurd ha (Nat.not_lt_zero a), fun a _ ha => ?_, fun hk => absurd rfl hk⟩
  rw [acceptStart_tb, Memory.read_zeroFirst, frameLen_of_valid h]
  exact if_pos ha

/-- The pixel read leaves the latch at the pixel that `eng.k` lies in, as PM holds it. -/
theorem latchIfFirst_engPx {s : State} (h : s.cfg.Valid)
    (hpm : ∀ ch, (Memory.read s.pm (pmIndex (pixelIndex s.cfg s.engK) ch)).isSome = true)
    (hpx : s.engK % 24 ≠ 0 → s.engPx = pixelAt s.pm (pixelIndex s.cfg s.engK)) :
    (latchIfFirst s).engPx = pixelAt s.pm (pixelIndex s.cfg s.engK) := by
  rw [latchIfFirst_eq h]
  split
  · exact latchPixel_of_written hpm
  · exact hpx ‹_›

/-- With the right pixel in the latch, the symbol write carries the progress on by one byte. -/
theorem writeSymbol_writtenUpTo {s : State} (h : s.cfg.Valid)
    (hpx : s.engPx = pixelAt s.pm (pixelIndex s.cfg s.engK)) (hw : WrittenUpTo s) : WrittenUpTo (writeSymbol s) := by
  obtain ⟨hbefore, hafter, -⟩ := hw
  simp only [WrittenUpTo, writeSymbol_engK, writeSymbol_tb, writeSymbol_cfg, writeSymbol_pm, writeSymbol_engN,
    writeSymbol_engPx]
  refine ⟨fun a ha => ?_, fun a ha hlt => ?_, fun hk => ?_⟩
  · rw [Memory.read_write]
    split
    · subst_vars
      rw [hpx]
    · exact hbefore a (by omega)
  · rw [Memory.read_write_other _ _ (by omega)]
    exact hafter a (by omega) hlt
  · rw [hpx, pixelIndex_of_valid h, pixelIndex_of_valid h]
    congr 1
    omega

theorem completeIfLast_writtenUpTo {s : State} (hw : WrittenUpTo s) : WrittenUpTo (completeIfLast s) := by
  simpa [WrittenUpTo] using hw

theorem latchIfFirst_writtenUpTo {s : State} (hw : WrittenUpTo s)
    (hpx : (latchIfFirst s).engPx = pixelAt s.pm (pixelIndex s.cfg s.engK)) : WrittenUpTo (latchIfFirst s) := by
  obtain ⟨hbefore, hafter, -⟩ := hw
  exact ⟨by simpa using hbefore, by simpa using hafter, fun _ => by simpa using hpx⟩

theorem advanceEngine_writtenUpTo {s : State} (h : s.cfg.Valid)
    (hpm : ∀ ch, (Memory.read s.pm (pmIndex (pixelIndex s.cfg s.engK) ch)).isSome = true) (hw : WrittenUpTo s) :
    WrittenUpTo (advanceEngine s) := by
  have hpx := latchIfFirst_engPx h hpm hw.2.2
  exact completeIfLast_writtenUpTo
    (writeSymbol_writtenUpTo (by simpa using h) (by simpa using hpx) (latchIfFirst_writtenUpTo hw hpx))

theorem PixelsWritten.pixel {m : Memory} {n p : Nat} (h : PixelsWritten m n) (hp : p < n) (ch : Channel) :
    (Memory.read m (pmIndex p ch)).isSome = true := by
  apply h
  cases ch <;> simp only [pmIndex] <;> omega

/-! ### An accepted frame under the engine's steps (R115, R119) -/

/-- `k` engine steps into a frame of `n` pixels, on a block with configuration `c` and pixel memory `m`. -/
structure Encoding (c : Config) (m : Memory) (n k : Nat) (s : State) : Prop where
  cfg : s.cfg = c
  pm : s.pm = m
  engN : s.engN = n
  engK : s.engK = k
  len : s.len = BitVec.ofNat 32 (24 * n + 40)
  /-- BUSY lasts while a pixel byte is missing. -/
  running : s.status.phase = .busy → k < 24 * n
  written : WrittenUpTo s

/-- A START request that is accepted leaves the frame at its beginning. -/
theorem encoding_of_start {s t : State} {n : Nat} (hc : s.cfg.Valid) (hs : StartsFrame s n)
    (h : exec (.wrCtrl 1#32) s = .next t) : Encoding s.cfg s.pm n 0 t := by
  obtain rfl : t = respond (acceptStart s n) none := by
    have hreq : startRequest s = acceptStart s n := by
      simp only [startRequest, startOutcome_of_startsFrame hc hs]
    rw [← hreq]
    exact next_inj h
  have hn := hs.2.2.1
  exact ⟨rfl, rfl, rfl, rfl, by simp [frameLen_of_valid hc], fun _ => by omega, acceptStart_writtenUpTo n hc⟩

theorem Encoding.engineStep {c : Config} {m : Memory} {n k : Nat} {s t : State} (hc : c.Valid)
    (hm : PixelsWritten m n) (he : Encoding c m n k s) (h : exec .engineStep s = .next t) :
    Encoding c m n (k + 1) t := by
  obtain ⟨rfl, rfl, rfl, rfl, hlen, hrun, hw⟩ := he
  obtain ⟨hb, rfl⟩ := execEngineStep_cases h
  have hk := hrun hb
  have hp : pixelIndex s.cfg s.engK < s.engN := by
    rw [pixelIndex_of_valid hc]
    omega
  refine ⟨by simp, by simp, by simp, by simp, by simpa using hlen, fun hb' => ?_,
    advanceEngine_writtenUpTo hc (hm.pixel hp) hw⟩
  rw [advanceEngine_status hc] at hb'
  split at hb'
  · cases hb'
  · omega

theorem Encoding.runEngine {c : Config} {m : Memory} {n : Nat} (hc : c.Valid) (hm : PixelsWritten m n) (j : Nat) :
    ∀ {k : Nat} {s t : State}, Encoding c m n k s → runEngine j s = .next t → Encoding c m n (k + j) t := by
  induction j with
  | zero =>
    intro k s t he h
    obtain rfl := next_inj h
    exact he
  | succ j ih =>
    intro k s t he h
    simp only [Machine.runEngine] at h
    split at h
    · rename_i u hu
      rw [show k + (j + 1) = k + 1 + j by omega]
      exact ih (he.engineStep hc hm hu) h
    · cases h
    · cases h

/-- A whole frame: the START request and its `24 n` engine steps (R119). -/
theorem encoding_of_runFrame {s t : State} {n : Nat} (hc : s.cfg.Valid) (hs : StartsFrame s n)
    (hm : PixelsWritten s.pm n) (h : runFrame s = .next t) : Encoding s.cfg s.pm n (24 * n) t := by
  unfold runFrame at h
  split at h
  · rename_i u hu
    have he := encoding_of_start hc hs hu
    rw [he.engN] at h
    simpa using he.runEngine hc hm _ h
  · cases h
  · cases h

/-! ### Independence of history (R44, R120) -/

/-- The frame byte at `a`, as the configuration and the pixel memory give it (R118). -/
def frameByte (c : Config) (m : Memory) (n a : Nat) : Byte :=
  if a < 24 * n then symbolAt c (pixelAt m (pixelIndex c a)) a else 0x00#8

theorem Encoding.read_tb {c : Config} {m : Memory} {n a : Nat} {t : State} (he : Encoding c m n (24 * n) t)
    (ha : a < 24 * n + 40) : Memory.read t.tb a = some (frameByte c m n a) := by
  obtain ⟨rfl, rfl, rfl, hk, -, -, hbefore, hafter, -⟩ := he
  rw [frameByte]
  split
  · exact hbefore a (by omega)
  · exact hafter a (by omega) ha

theorem pixelAt_congr {m m' : Memory} {n p : Nat} (hp : p < n)
    (h : ∀ a, a < 3 * n → Memory.read m' a = Memory.read m a) : pixelAt m' p = pixelAt m p := by
  have key (ch : Channel) : Memory.read m' (pmIndex p ch) = Memory.read m (pmIndex p ch) := by
    apply h
    cases ch <;> simp only [pmIndex] <;> omega
  simp only [pixelAt, key]

/-- The capacity, the one parameter the spec leaves open, is no part of the frame map (R44). -/
theorem symbolAt_eq_of_valid {c c' : Config} (h : c.Valid) (h' : c'.Valid) (px : Pixel) (k : Nat) :
    symbolAt c' px k = symbolAt c px k := by
  rw [symbolAt_of_valid h, symbolAt_of_valid h', sym_of_valid h, sym_of_valid h']

theorem frameByte_congr {c c' : Config} {m m' : Memory} {n : Nat} (h : c.Valid) (h' : c'.Valid)
    (hm : ∀ a, a < 3 * n → Memory.read m' a = Memory.read m a) (a : Nat) :
    frameByte c' m' n a = frameByte c m n a := by
  simp only [frameByte]
  split
  · rw [pixelIndex_of_valid h, pixelIndex_of_valid h', pixelAt_congr (p := a / 24) (by omega) hm,
      symbolAt_eq_of_valid h h']
  · rfl

/-- Settles O51: each run ends with `frameByte` in every byte of its frame, and `frameByte` is the same for both. -/
theorem frameIsIndependentOfHistory : Obligations.FrameIsIndependentOfHistory := by
  intro s s' t t' n hc hc' hs hs' hpm hsame ht ht'
  have hpm' : PixelsWritten s'.pm n := fun a ha => by
    rw [hsame a ha]
    exact hpm a ha
  have he := encoding_of_runFrame hc hs hpm ht
  have he' := encoding_of_runFrame hc' hs' hpm' ht'
  refine ⟨he'.len.trans he.len.symm, fun a ha => ?_⟩
  rw [he.read_tb ha, he'.read_tb ha, frameByte_congr hc hc' hsame]

end Sys2Proof.Machine
end

section
/-! PROOFS. Memory (20_memory.md): what a host read answers and that it changes nothing (R59, R74), and that a finished
frame is read back byte for byte and stays (R64, R117, R136). -/

namespace Sys2Proof.Machine

/-! ### Byte responses (R74) -/

/-- A byte's response has no bit above bit 7. -/
theorem zext32_high_bits (v : Byte) : (zext32 v).extractLsb' 8 24 = 0#24 := by
  apply BitVec.eq_of_getLsbD_eq
  intro k hk
  simp [zext32]

/-- `t` is `s` after a read that answered with a byte. -/
def AnswersByte (s t : State) : Prop := SameMachine s t ∧ ∃ v : Byte, t.rdata = some (zext32 v)

theorem answersByte_zero (s : State) : AnswersByte s (respond s (some 0#32)) :=
  ⟨respond_sameMachine _ _, 0#8, rfl⟩

theorem answersByte_respondByte (s : State) (b : Option Byte) : AnswersByte s (respondByte s b) := by
  refine ⟨respondByte_sameMachine s b, ?_⟩
  cases b with
  | none => exact ⟨drawnByte s, rfl⟩
  | some v => exact ⟨v, rfl⟩

/-! ### The reads of each space (R124 to R138) -/

theorem execRdPm_answersByte {a : Index} {s t : State} (h : execRdPm a s = .next t) : AnswersByte s t := by
  unfold execRdPm at h
  split at h <;> obtain rfl := next_inj h
  · exact answersByte_zero s
  · exact answersByte_respondByte s _

theorem execRdTb_answersByte {a : Index} {s t : State} (h : execRdTb a s = .next t) : AnswersByte s t := by
  unfold execRdTb at h
  split at h
  · obtain rfl := next_inj h
    exact answersByte_zero s
  · split at h <;> obtain rfl := next_inj h <;> exact answersByte_respondByte s _

/-- A reserved register reads 0 (R30). -/
theorem readRegister_reserved (s : State) {i : Index} (h : 4 ≤ i.toNat) : readRegister s i = 0#32 := by
  have h0 : i ≠ 0#29 := by rintro rfl; simp at h
  have h2 : i ≠ 2#29 := by rintro rfl; simp at h
  have h3 : i ≠ 3#29 := by rintro rfl; simp at h
  rw [readRegister, if_neg h0, if_neg h2, if_neg h3]

/-- A register read answers with the register of its index, a reserved index too (R30). -/
theorem exec_decodeRegRead (i : Index) (s : State) :
    exec (decodeRegRead i) s = .next (respond s (some (readRegister s i))) := by
  rcases regIndex_cases i with rfl | rfl | rfl | rfl | h
  · rfl
  · rfl
  · rfl
  · rfl
  · rw [decodeRegRead_reserved h, readRegister_reserved s h]
    rfl

theorem sp_of_spaceOf_reg : ∀ {sp : BitVec 2}, spaceOf sp = .reg → sp = 0#2 := by decide

/-- A read of the register space answers with a register, a read of any other space with a byte (R59, R74). -/
theorem hostRead_cases {w : Htw} {s t : State} (hwe : htwWe w = false) (h : exec (decode w) s = .next t) :
    (htwSp w = 0#2 ∧ t = respond s (some (readRegister s (htwIdx w)))) ∨ AnswersByte s t := by
  cases hsp : spaceOf (htwSp w) <;> simp only [decode, hsp, hwe] at h
  case reg =>
    rw [exec_decodeRegRead] at h
    exact .inl ⟨sp_of_spaceOf_reg hsp, next_inj h⟩
  case pm => exact .inr (execRdPm_answersByte h)
  case tb => exact .inr (execRdTb_answersByte h)
  case rsv =>
    obtain rfl := next_inj h
    exact .inr (answersByte_zero s)

/-- Settles O26: a register read answers with its word and a read of another space with a byte, and neither touches
anything else. -/
theorem hostReadsHaveNoSideEffects : Obligations.HostReadsHaveNoSideEffects := by
  intro w s t hwe h
  rcases hostRead_cases hwe h with ⟨hsp, rfl⟩ | ⟨⟨hblock, hout⟩, v, hv⟩
  · obtain ⟨hblock, hout⟩ := respond_sameMachine s (some (readRegister s (htwIdx w)))
    exact ⟨hblock, hout, _, rfl, fun hne => absurd hsp hne⟩
  · exact ⟨hblock, hout, _, hv, fun _ => zext32_high_bits v⟩

/-! ### Reading a frame back (R110, R136) -/

theorem expand8_length (c : Config) (v : Byte) : (expand8 c v).length = 8 := rfl

theorem pixel24_length (c : Config) (px : Pixel) : (pixel24 c px).length = 24 := by
  simp only [pixel24, List.length_append, expand8_length]

theorem encodePixels_length {c : Config} (h : c.Valid) (pixels : List Pixel) :
    (encodePixels c pixels).length = 24 * pixels.length + 40 := by
  rw [encodePixels, List.length_append, List.length_replicate, h.resetBytes, List.length_flatMap]
  simp [pixel24_length, Nat.mul_comm]

/-- Outside BUSY a read of TB answers with the byte that TB holds (R136). -/
theorem execRdTb_of_read {a : Index} {s : State} {v : Byte} (ha : a.toNat < s.cfg.tbCapacity)
    (hb : s.status.phase ≠ .busy) (hv : Memory.read s.tb a.toNat = some v) :
    execRdTb a s = .next (respond s (some (zext32 v))) := by
  rw [execRdTb, if_neg (Nat.not_le_of_lt ha), if_neg hb, hv]
  rfl

/-! ### What keeps TB -/

/-- Of the updates from outside BUSY to outside BUSY only a TB write and TAIL_ZERO touch TB: a START that is accepted
leaves BUSY, the engine has no step, and a reset aborts no frame (R116, R121, R177). -/
theorem Update.tb_outside_busy {i : Instr} {s u : State} (h : Update i s u) (hs : s.status.phase ≠ .busy)
    (hu : u.status.phase ≠ .busy) (hw : ∀ a d, i ≠ .wrTb a d) (hz : ∀ n k, i ≠ .tailZero n k) : u.tb = s.tb := by
  cases h with
  | nothing | setsCount v | rejectsStart hi hb he | storesPm a d => simp
  | ignoresStart hi hb | advances hb => exact absurd hb hs
  | acceptsStart hi hb hn hl => exact absurd rfl hu
  | storesTb a d => exact absurd rfl (hw a d)
  | zeroesTail hn hk => exact absurd rfl (hz _ _)
  | resets => rw [applyReset_tb, abortFrame_tb, if_neg hs]

theorem HoldsFrame.of_same_tb {s t : State} {pixels : List Pixel} (h : HoldsFrame s pixels) (hcfg : t.cfg = s.cfg)
    (htb : t.tb = s.tb) : HoldsFrame t pixels := by
  unfold HoldsFrame
  rw [hcfg, htb]
  exact h

/-- Settles O50: each byte of the frame has a value, which the read returns, and no update but the two named ones
touches TB. -/
theorem finishedFrameStaysReadable : Obligations.FinishedFrameStaysReadable := by
  intro s pixels hc hb hframe
  refine ⟨fun a ha hcap => ?_, fun i t h hw hz ht => ?_⟩
  · have hlt : a.toNat < (encodePixels s.cfg pixels).length := by rwa [encodePixels_length hc]
    have hget := List.getElem?_eq_getElem hlt
    refine ⟨_, execRdTb_of_read hcap hb ((hframe _ ha).trans hget), ?_⟩
    rw [respond_rdata, hget, Option.map_some]
  · obtain ⟨u, hu, ⟨hcfg, -, hst, -, -, -, -, -, htb, -⟩, -⟩ := exec_cases h
    rw [hst] at ht
    exact hframe.of_same_tb (hcfg.trans hu.cfg) (htb.trans (hu.tb_outside_busy hb ht hw hz))

end Sys2Proof.Machine
end

section
/-! PROOFS. Encoding (30_encoding.md): what the fields of a word select, the canonical word of a transaction, the seven
values of `STATUS`, and the index decode of a frame. -/

namespace Sys2Proof

/-! ### The transaction that SP and WE select (R89, R92) -/

@[simp] theorem decode_regRead (i : Index) (v : Word) : decode (mkHtw 0#2 false i v) = decodeRegRead i :=
  decode_mkHtw _ _ _ _

@[simp] theorem decode_regWrite (i : Index) (v : Word) : decode (mkHtw 0#2 true i v) = decodeRegWrite i v :=
  decode_mkHtw _ _ _ _

@[simp] theorem decode_pmRead (i : Index) (v : Word) : decode (mkHtw 1#2 false i v) = .rdPm i :=
  decode_mkHtw _ _ _ _

@[simp] theorem decode_pmWrite (i : Index) (v : Word) : decode (mkHtw 1#2 true i v) = .wrPm i (lowByte v) :=
  decode_mkHtw _ _ _ _

@[simp] theorem decode_tbRead (i : Index) (v : Word) : decode (mkHtw 2#2 false i v) = .rdTb i :=
  decode_mkHtw _ _ _ _

@[simp] theorem decode_tbWrite (i : Index) (v : Word) : decode (mkHtw 2#2 true i v) = .wrTb i (lowByte v) :=
  decode_mkHtw _ _ _ _

@[simp] theorem decode_rsvRead (i : Index) (v : Word) : decode (mkHtw 3#2 false i v) = .rdRsvsp i :=
  decode_mkHtw _ _ _ _

@[simp] theorem decode_rsvWrite (i : Index) (v : Word) : decode (mkHtw 3#2 true i v) = .wrRsvsp i v :=
  decode_mkHtw _ _ _ _

theorem lowByte_eq_setWidth (v : Word) : lowByte v = v.setWidth 8 :=
  (BitVec.setWidth_eq_extractLsb' (by decide)).symm

/-- Settles O4: SP and WE select a row of the table or the register space, where the whole index selects the row. -/
theorem fieldsSelectTheTransaction : Obligations.FieldsSelectTheTransaction := by
  intro i v
  refine ⟨decode_regRead _ v, decode_regWrite _ v, decode_regRead _ v, decode_regWrite _ v, decode_regRead _ v,
    decode_regWrite _ v, decode_regRead _ v, decode_regWrite _ v, fun h => ⟨?_, ?_⟩, decode_pmRead i v, ?_,
    decode_tbRead i v, ?_, decode_rsvRead i v, decode_rsvWrite i v⟩
  · rw [decode_regRead, decodeRegRead_reserved h]
  · rw [decode_regWrite, decodeRegWrite_reserved v h]
  · rw [decode_pmWrite, lowByte_eq_setWidth]
  · rw [decode_tbWrite, lowByte_eq_setWidth]

/-! ### The word of a transaction decodes back (R69 to R73) -/

theorem decode_encode {c : Config} {i : Instr} {w : Htw} (hwf : i.wellFormed c = true) (h : encode i = some w) :
    decode w = i := by
  cases i with
  | rdNreg | wrNreg v | rdCtrl | wrCtrl v | rdStatus | wrStatus v | rdLen | wrLen v =>
    obtain rfl := Option.some.inj h
    simp [decodeRegRead, decodeRegWrite]
  | rdRsvreg i =>
    obtain rfl := Option.some.inj h
    rw [decode_regRead, decodeRegRead_reserved (of_decide_eq_true hwf)]
  | wrRsvreg i v =>
    obtain rfl := Option.some.inj h
    rw [decode_regWrite, decodeRegWrite_reserved v (of_decide_eq_true hwf)]
  | rdPm a | rdTb a | rdRsvsp a | wrRsvsp a v | wrPm a d | wrTb a d =>
    obtain rfl := Option.some.inj h
    simp
  | symHigh | symLow | tailZero n k | expand8 v | pixel24 px | encode pixels | startIgnore | startReject
  | startAccept | engineStep | reset => cases h

/-- Settles O1: the fields of the word select the row that the operation came from. -/
theorem decodeInvertsEncode : Obligations.DecodeInvertsEncode :=
  fun _ _ _ => decode_encode

/-! ### The canonical word (R69, R73, R89) -/

theorem sp_cases : ∀ sp : BitVec 2, sp = 0#2 ∨ sp = 1#2 ∨ sp = 2#2 ∨ sp = 3#2 := by decide

/-- What the canonical word keeps of WDATA: nothing in a read, the low byte in a PM or TB write, all of it in any other
write (R73, R89, log 14). -/
def keptWdata (sp : BitVec 2) (we : Bool) (v : Word) : Word :=
  if we = false then 0#32 else if sp = 1#2 ∨ sp = 2#2 then (lowByte v).setWidth 32 else v

theorem keptWdata_read (sp : BitVec 2) (v : Word) : keptWdata sp false v = 0#32 := rfl

theorem keptWdata_byteWrite {sp : BitVec 2} (h : sp = 1#2 ∨ sp = 2#2) (v : Word) :
    keptWdata sp true v = (lowByte v).setWidth 32 :=
  if_pos h

theorem keptWdata_wordWrite {sp : BitVec 2} (h : sp = 0#2 ∨ sp = 3#2) (v : Word) : keptWdata sp true v = v := by
  rcases h with rfl | rfl <;> rfl

/-- A register read, at a reserved index too, is well-formed and has the read word of its index. -/
theorem decodeRegRead_canonical (c : Config) (i : Index) :
    (decodeRegRead i).wellFormed c = true ∧ encode (decodeRegRead i) = some (mkHtw 0#2 false i 0#32) := by
  rcases regIndex_cases i with rfl | rfl | rfl | rfl | h
  · exact ⟨rfl, rfl⟩
  · exact ⟨rfl, rfl⟩
  · exact ⟨rfl, rfl⟩
  · exact ⟨rfl, rfl⟩
  · rw [decodeRegRead_reserved h]
    exact ⟨decide_eq_true h, rfl⟩

/-- A register write, at a reserved index too, is well-formed and has the write word of its index and value. -/
theorem decodeRegWrite_canonical (c : Config) (i : Index) (v : Word) :
    (decodeRegWrite i v).wellFormed c = true ∧ encode (decodeRegWrite i v) = some (mkHtw 0#2 true i v) := by
  rcases regIndex_cases i with rfl | rfl | rfl | rfl | h
  · exact ⟨rfl, rfl⟩
  · exact ⟨rfl, rfl⟩
  · exact ⟨rfl, rfl⟩
  · exact ⟨rfl, rfl⟩
  · rw [decodeRegWrite_reserved v h]
    exact ⟨decide_eq_true h, rfl⟩

theorem decode_mkHtw_canonical (c : Config) (sp : BitVec 2) (we : Bool) (i : Index) (v : Word) :
    (decode (mkHtw sp we i v)).wellFormed c = true ∧
      encode (decode (mkHtw sp we i v)) = some (mkHtw sp we i (keptWdata sp we v)) := by
  rw [decode_mkHtw]
  rcases sp_cases sp with rfl | rfl | rfl | rfl <;> cases we
  case inl.false => exact decodeRegRead_canonical c i
  case inl.true => exact decodeRegWrite_canonical c i v
  all_goals exact ⟨rfl, rfl⟩

/-- Every word decodes to a well-formed transaction, whose word has the fields SP, WE and IDX and the kept part of
WDATA. -/
theorem decode_canonical (c : Config) (w : Htw) :
    (decode w).wellFormed c = true ∧
      encode (decode w) =
        some (mkHtw (htwSp w) (htwWe w) (htwIdx w) (keptWdata (htwSp w) (htwWe w) (htwWdata w))) := by
  have h := decode_mkHtw_canonical c (htwSp w) (htwWe w) (htwIdx w) (htwWdata w)
  rwa [mkHtw_fields] at h

/-- Settles O2: the canonical word keeps SP, WE, IDX and `keptWdata`, and it decodes back as every word of a well-formed
transaction does. -/
theorem everyWordIsAHostTransaction : Obligations.EveryWordIsAHostTransaction := by
  intro c w
  obtain ⟨hwf, henc⟩ := decode_canonical c w
  refine ⟨hwf, _, henc, decode_encode hwf henc, htwSp_mkHtw _ _ _ _, htwWe_mkHtw _ _ _ _, htwIdx_mkHtw _ _ _ _,
    fun hwe => ?_, fun hwe hsp => ?_, fun hwe hsp => ?_⟩ <;> rw [htwWdata_mkHtw, hwe]
  · exact keptWdata_read _ _
  · exact keptWdata_wordWrite hsp _
  · exact keptWdata_byteWrite hsp _

/-! ### Words of the vectors, and ignored write data -/

/-- Settles O3: eight closed words, each decoded by evaluation. -/
theorem specWordsDecode : Obligations.SpecWordsDecode := by
  refine ⟨?_, ?_, ?_, ?_, ?_, ?_, ?_, ?_⟩ <;> decide

/-- Settles O5: the operands of a read take nothing of WDATA, those of a byte write its low byte only. -/
theorem ignoredWriteDataDoesNotDecode : Obligations.IgnoredWriteDataDoesNotDecode := by
  intro sp i v v'
  constructor
  · rcases sp_cases sp with rfl | rfl | rfl | rfl <;> simp
  · rintro (rfl | rfl) hv <;> simp [hv]

namespace Machine

/-! ### The values of `STATUS` (R77) -/

/-- The statuses that occur: after reset, in a frame and after it with `OVR` clear and set, and after a rejection for
each of the two reasons (R42, R113 to R117). -/
def occurringStatuses : List Status :=
  [statusIdle, statusBusy, statusOverrun statusBusy, statusDone statusBusy, statusDone (statusOverrun statusBusy),
    statusError .count, statusError .capacity]

theorem State.Inv.ovr_eq_false {s : State} (h : s.Inv) (hb : s.status.phase ≠ .busy) (hd : s.status.phase ≠ .done) :
    s.status.ovr = false :=
  Bool.eq_false_iff.2 fun ho => (h.ovr ho).elim hb hd

theorem status_ext {st st' : Status} (hp : st.phase = st'.phase) (he : st.err = st'.err) (ho : st.ovr = st'.ovr) :
    st = st' := by
  cases st
  cases st'
  congr

/-- The clause of the phase fixes the error code, and `OVR` is clear but in BUSY and DONE. -/
theorem State.Inv.status_mem {s : State} (h : s.Inv) : s.status ∈ occurringStatuses := by
  cases hp : s.status.phase with
  | idle =>
    obtain ⟨-, he, -⟩ := h.idle hp
    have ho := h.ovr_eq_false (by simp [hp]) (by simp [hp])
    rw [status_ext (st' := statusIdle) hp he ho]
    decide
  | busy =>
    obtain ⟨he, -⟩ := h.busy hp
    cases ho : s.status.ovr with
    | false =>
      rw [status_ext (st' := statusBusy) hp he ho]
      decide
    | true =>
      rw [status_ext (st' := statusOverrun statusBusy) hp he ho]
      decide
  | done =>
    obtain ⟨he, -⟩ := h.done hp
    cases ho : s.status.ovr with
    | false =>
      rw [status_ext (st' := statusDone statusBusy) hp he ho]
      decide
    | true =>
      rw [status_ext (st' := statusDone (statusOverrun statusBusy)) hp he ho]
      decide
  | error =>
    obtain ⟨hne, -⟩ := h.error hp
    have ho := h.ovr_eq_false (by simp [hp]) (by simp [hp])
    rw [status_ext (st' := statusError s.status.err) hp rfl ho]
    cases he : s.status.err with
    | none => exact absurd he hne
    | count => decide
    | capacity => decide

/-- The word that a read of `STATUS` returns, with the fields it is made of (R77). -/
def statusRow (st : Status) : Word × Phase × Err × Bool := (statusWord st, st.phase, st.err, st.ovr)

/-- Settles O14: the table is the rows of the statuses that occur. -/
theorem statusHasOneOfSevenValues : Obligations.StatusHasOneOfSevenValues := by
  intro s h
  exact List.mem_map_of_mem (f := statusRow) h.status_mem

/-! ### The elements of a frame (R81, R102, R105, R110) -/

theorem expand8_getElem? (c : Config) (v : Byte) {i : Nat} (hi : i < 8) :
    (expand8 c v)[i]? = some (sym c (bit v (7 - i))) := by
  interval_cases i <;> rfl

theorem pixel24_getElem?_slot (c : Config) (px : Pixel) (slot : Slot) {i : Nat} (hi : i < 8) :
    (pixel24 c px)[8 * slot.val + i]? = some (sym c (bit (chan c px slot) (7 - i))) := by
  rw [← expand8_getElem? c _ hi]
  match slot with
  | 0 => simp [pixel24, List.getElem?_append, expand8_length, hi]
  | 1 => simp [pixel24, List.getElem?_append, expand8_length, hi]
  | 2 =>
    rw [pixel24, List.getElem?_append_right (by simp [expand8_length])]
    simp [expand8_length]

theorem pixel24_getElem? {c : Config} (h : c.Valid) (px : Pixel) {j : Nat} (hj : j < 24) :
    (pixel24 c px)[j]? = some (symbolAt c px j) := by
  have hpos : positionOf j < 8 := Nat.mod_lt j (by decide)
  have hidx : 8 * (slotOf c j).val + positionOf j = j := by
    simp only [slotOf, positionOf, h.bytesPerLed, Fin.ofNat]
    omega
  rw [symbolAt, ← pixel24_getElem?_slot c px (slotOf c j) hpos, hidx]

/-- The symbol at a TB index depends on the place within the pixel only (R81). -/
theorem symbolAt_mod {c : Config} (h : c.Valid) (px : Pixel) (k : Nat) : symbolAt c px (k % 24) = symbolAt c px k := by
  have hpos : k % 24 % 8 = k % 8 := by omega
  rw [symbolAt_of_valid h, symbolAt_of_valid h, Nat.mod_mod, hpos]

theorem flatMap_pixel24_getElem? {c : Config} (h : c.Valid) (pixels : List Pixel) (k : Nat) :
    (pixels.flatMap (pixel24 c))[k]? = (pixels[k / 24]?).map (symbolAt c · k) := by
  induction pixels generalizing k with
  | nil => rfl
  | cons px rest ih =>
    rw [List.flatMap_cons]
    by_cases hk : k < 24
    · rw [List.getElem?_append_left (by rwa [pixel24_length]), pixel24_getElem? h px hk, Nat.div_eq_of_lt hk]
      rfl
    · obtain ⟨m, rfl⟩ := Nat.exists_eq_add_of_le' (Nat.le_of_not_lt hk)
      rw [List.getElem?_append_right (by rw [pixel24_length]; omega), pixel24_length, Nat.add_sub_cancel, ih,
        Nat.add_div_right m (by omega), List.getElem?_cons_succ]
      simp only [← symbolAt_mod h _ (m + 24), Nat.add_mod_right, symbolAt_mod h]

theorem flatMap_pixel24_length (c : Config) (pixels : List Pixel) :
    (pixels.flatMap (pixel24 c)).length = 24 * pixels.length := by
  simp [List.length_flatMap, pixel24_length, Nat.mul_comm]

/-- The pixel region of a frame (R81). -/
theorem encodePixels_getElem?_pixel {c : Config} (h : c.Valid) (pixels : List Pixel) {k : Nat}
    (hk : k / 24 < pixels.length) :
    (encodePixels c pixels)[k]? = some (symbolAt c pixels[k / 24] k) := by
  have hlt : k < (pixels.flatMap (pixel24 c)).length := by
    rw [flatMap_pixel24_length]
    omega
  rw [encodePixels, List.getElem?_append_left hlt, flatMap_pixel24_getElem? h, List.getElem?_eq_getElem hk,
    Option.map_some]

/-- The tail of a frame (R97, R110). -/
theorem encodePixels_getElem?_tail {c : Config} (h : c.Valid) (pixels : List Pixel) {k : Nat}
    (hk : 24 * pixels.length ≤ k) (hlt : k < 24 * pixels.length + 40) :
    (encodePixels c pixels)[k]? = some 0x00#8 := by
  rw [encodePixels, List.getElem?_append_right (by rwa [flatMap_pixel24_length]), flatMap_pixel24_length,
    h.resetBytes, List.getElem?_replicate, if_pos (by omega)]
  rfl

/-- Settles O41: the pixel region by `symbolAt` written out, the tail, and the division of the index. -/
theorem frameIndexDecode : Obligations.FrameIndexDecode := by
  intro c pixels k hc
  refine ⟨fun h => ?_, encodePixels_getElem?_tail hc pixels, by omega⟩
  exact (encodePixels_getElem?_pixel hc pixels h).trans (congrArg some (symbolAt_of_valid hc _ k))

/-! ### The bytes of a frame (R84) -/

theorem symbolAt_eq_or {c : Config} (h : c.Valid) (px : Pixel) (k : Nat) :
    symbolAt c px k = 0x1F#8 ∨ symbolAt c px k = 0x03#8 := by
  rw [symbolAt, sym_of_valid h]
  split
  · exact .inl rfl
  · exact .inr rfl

/-- Settles O42: an element is a symbol in the pixel region, and 0x00 past it. -/
theorem frameAlphabetIsClosed : Obligations.FrameAlphabetIsClosed := by
  intro c pixels k x hc hx
  constructor
  · intro hk
    rw [encodePixels_getElem?_pixel hc pixels (by omega)] at hx
    obtain rfl := Option.some.inj hx
    exact symbolAt_eq_or hc _ k
  · intro hk
    obtain ⟨hlt, -⟩ := List.getElem?_eq_some_iff.1 hx
    rw [encodePixels_length hc] at hlt
    rw [encodePixels_getElem?_tail hc pixels hk hlt] at hx
    exact (Option.some.inj hx).symm

end Machine

end Sys2Proof
end

section
/-! PROOFS. Bit symbols (40_bit_symbol.md): the symbols and their inverse, the pulses they put on the wire, where an
internal operation is refused, and what TAIL_ZERO and the function operations leave. -/

namespace Sys2Proof.Machine

/-! ### The pulses of a line (R99) -/

/-- What the end of a high pulse of `run` bit times adds to the list of pulses: none where the line was low. -/
def endedPulse (run : Nat) : List Nat := if run = 0 then [] else [run]

@[simp] theorem pulsesFrom_nil (run : Nat) : pulsesFrom run [] = endedPulse run := rfl

theorem pulsesFrom_low (run : Nat) (l : List Bool) : pulsesFrom run (false :: l) = endedPulse run ++ pulsesFrom 0 l := by
  rw [pulsesFrom, endedPulse]
  split <;> rfl

theorem pulsesFrom_highs (run n : Nat) (l : List Bool) :
    pulsesFrom run (List.replicate n true ++ l) = pulsesFrom (run + n) l := by
  induction n generalizing run with
  | zero => rfl
  | succ n ih => exact (ih (run + 1)).trans (by rw [Nat.add_right_comm, Nat.add_assoc])

theorem pulsesFrom_lows (run : Nat) {n : Nat} (hn : n ≠ 0) (l : List Bool) :
    pulsesFrom run (List.replicate n false ++ l) = endedPulse run ++ pulsesFrom 0 l := by
  induction n generalizing run with
  | zero => exact absurd rfl hn
  | succ n ih =>
    rw [List.replicate_succ, List.cons_append, pulsesFrom_low]
    cases n with
    | zero => rfl
    | succ n => rw [ih 0 (by simp)]; rfl

/-! ### The pulse of a symbol (R96, R99) -/

/-- The length in SPI bit times of the pulse of a protocol bit (R99). -/
def pulseWidth (b : Bool) : Nat := if b then 5 else 2

@[simp] theorem endedPulse_pulseWidth (b : Bool) : endedPulse (pulseWidth b) = [pulseWidth b] := by
  cases b <;> rfl

theorem sym_getLsbD {c : Config} (h : c.Valid) (b : Bool) {j : Nat} (hj : j < 8) :
    (sym c b).getLsbD j = decide (j < pulseWidth b) := by
  rw [sym_of_valid h]
  cases b <;> interval_cases j <;> rfl

/-- Most significant bit first, a symbol is low before its pulse, so it ends the pulse of the symbol before it. -/
theorem wireByte_msbFirst_sym {c : Config} (h : c.Valid) (b : Bool) :
    wireByte .msbFirst (sym c b) =
      List.replicate (8 - pulseWidth b) false ++ List.replicate (pulseWidth b) true := by
  rw [sym_of_valid h]
  cases b <;> rfl

/-- Least significant bit first, a symbol is low after its pulse. -/
theorem wireByte_lsbFirst_sym {c : Config} (h : c.Valid) (b : Bool) :
    wireByte .lsbFirst (sym c b) =
      List.replicate (pulseWidth b) true ++ List.replicate (8 - pulseWidth b) false := by
  rw [sym_of_valid h]
  cases b <;> rfl

theorem low_part_ne_zero (b : Bool) : 8 - pulseWidth b ≠ 0 := by
  cases b <;> decide

theorem wireLevels_cons (o : WireBitOrder) (v : Byte) (bytes : List Byte) :
    wireLevels o (v :: bytes) = wireByte o v ++ wireLevels o bytes := rfl

theorem pulsesFrom_symbols_msbFirst {c : Config} (h : c.Valid) (bits : List Bool) (run : Nat) :
    pulsesFrom run (wireLevels .msbFirst (bits.map (sym c))) = endedPulse run ++ bits.map pulseWidth := by
  induction bits generalizing run with
  | nil => exact (List.append_nil _).symm
  | cons b bits ih =>
    rw [List.map_cons, wireLevels_cons, wireByte_msbFirst_sym h, List.append_assoc,
      pulsesFrom_lows run (low_part_ne_zero b), pulsesFrom_highs, Nat.zero_add, ih, endedPulse_pulseWidth]
    rfl

theorem pulses_symbols_lsbFirst {c : Config} (h : c.Valid) (bits : List Bool) :
    pulses (wireLevels .lsbFirst (bits.map (sym c))) = bits.map pulseWidth := by
  induction bits with
  | nil => rfl
  | cons b bits ih =>
    rw [List.map_cons, wireLevels_cons, wireByte_lsbFirst_sym h, List.append_assoc, pulses, pulsesFrom_highs,
      pulsesFrom_lows _ (low_part_ne_zero b), Nat.zero_add, endedPulse_pulseWidth, ← pulses, ih]
    rfl

theorem pulses_symbols {c : Config} (h : c.Valid) (o : WireBitOrder) (bits : List Bool) :
    pulses (wireLevels o (bits.map (sym c))) = bits.map pulseWidth := by
  cases o with
  | msbFirst => exact pulsesFrom_symbols_msbFirst h bits 0
  | lsbFirst => exact pulses_symbols_lsbFirst h bits

/-- A byte 0x00 is eight low bit times (R97, R99). -/
theorem wireByte_zero (o : WireBitOrder) : wireByte o 0x00#8 = List.replicate 8 false := by
  cases o <;> rfl

theorem wireLevels_zeros (o : WireBitOrder) (n : Nat) :
    wireLevels o (List.replicate n 0x00#8) = List.replicate (n * 8) false := by
  rw [wireLevels, List.flatMap_replicate, wireByte_zero, List.flatten_replicate_replicate]

/-- Settles O59: a symbol has a low bit time on one side of its pulse, after it or before it by the bit order, so each
pulse ends before the next begins. -/
theorem symbolPulsesNeverMerge : Obligations.SymbolPulsesNeverMerge := fun _ hc =>
  ⟨fun _ hj => ⟨sym_getLsbD hc true hj, sym_getLsbD hc false hj⟩,
    fun o bits => ⟨pulses_symbols hc o bits, wireLevels_zeros o 40⟩⟩

/-! ### The inverse of the symbol map (R98) -/

theorem unsym_sym {c : Config} (h : c.Valid) (b : Bool) : unsym c (sym c b) = some b := by
  rw [unsym, sym, h.highSym, h.lowSym]
  cases b <;> rfl

theorem eq_sym_of_unsym {c : Config} {v : Byte} {b : Bool} (h : unsym c v = some b) : v = sym c b := by
  unfold unsym at h
  split at h
  · cases h
    assumption
  · split at h
    · cases h
      assumption
    · cases h

theorem unsym_eq_none_iff {c : Config} (h : c.Valid) (v : Byte) : unsym c v = none ↔ v ≠ 0x1F#8 ∧ v ≠ 0x03#8 := by
  rw [unsym, h.highSym, h.lowSym]
  by_cases h1 : v = 0x1F#8
  · simp [h1]
  · by_cases h0 : v = 0x03#8
    · simp [h0]
    · simp [h1, h0]

/-- Settles O37: `unsym` undoes `sym`, and is defined on the two symbols only. -/
theorem symbolsDecodeBack : Obligations.SymbolsDecodeBack := by
  intro c hc
  refine ⟨sym_of_valid hc true, sym_of_valid hc false, fun v => ⟨fun b => ⟨eq_sym_of_unsym, ?_⟩, unsym_eq_none_iff hc v⟩⟩
  rintro rfl
  exact unsym_sym hc b

/-! ### The selecting conditions (R97, R112, R116) -/

theorem execStartIgnore_refused {s : State} (h : startOutcome s.cfg s.status.phase s.nReg ≠ .ignore) :
    execStartIgnore s = .refused (.notEnabled "START_IGNORE") := by
  unfold execStartIgnore
  split
  · exact absurd ‹_› h
  · rfl
  · rfl

theorem execStartReject_refused {s : State} (h : ∀ e, startOutcome s.cfg s.status.phase s.nReg ≠ .reject e) :
    execStartReject s = .refused (.notEnabled "START_REJECT") := by
  unfold execStartReject
  split
  · exact absurd ‹_› (h _)
  · rfl
  · rfl

theorem execStartAccept_refused {s : State} (h : ∀ n, startOutcome s.cfg s.status.phase s.nReg ≠ .accept n) :
    execStartAccept s = .refused (.notEnabled "START_ACCEPT") := by
  unfold execStartAccept
  split
  · exact absurd ‹_› (h _)
  · rfl
  · rfl

/-- TAIL_ZERO runs exactly in the tail of a frame that the block can hold (R97). -/
theorem execTailZero_of_valid {s : State} (h : s.cfg.Valid) (n k : Nat) :
    execTailZero n k s =
      if 1 ≤ n ∧ n ≤ s.cfg.nMax ∧ 24 * n ≤ k ∧ k < 24 * n + 40 then
        .next (produce (zeroTail s k) [Config.tailByte])
      else .refused (.notEnabled "TAIL_ZERO") := by
  simp only [execTailZero, Bool.and_eq_true, decide_eq_true_eq, inTail_iff h, and_assoc]

/-- An accepted START has a count from 1 to `N_MAX` (R112). -/
theorem count_of_accept {c : Config} (h : c.Valid) {ph : Phase} {v : Word} {n : Nat}
    (ha : startOutcome c ph v = .accept n) : v.toInt = n ∧ 1 ≤ n ∧ n ≤ c.nMax := by
  obtain ⟨-, hv, hn, hl⟩ := startOutcome_eq_accept.1 ha
  exact ⟨hv, hn, (frameLen_le_iff h n).1 hl⟩

/-- Settles O32: a START operation is refused where `startOutcome` gives another outcome, the engine step outside BUSY,
and TAIL_ZERO outside the tail of a frame that fits. -/
theorem internalOperationsAreSelected : Obligations.InternalOperationsAreSelected := by
  intro s
  refine ⟨fun hb => ⟨?_, if_neg hb⟩, fun hb => ⟨?_, ?_⟩, fun n hc hs => ?_, fun hb hc hv => ?_, fun n k hc hk => ?_, rfl⟩
  · exact execStartIgnore_refused fun ho => hb (startOutcome_eq_ignore.1 ho)
  · exact execStartReject_refused fun e ho => (startOutcome_reject_ne_none ho).1 hb
  · exact execStartAccept_refused fun n ho => (startOutcome_eq_accept.1 ho).1 hb
  · refine execStartReject_refused fun e ho => ?_
    rw [startOutcome_of_startsFrame hc hs] at ho
    cases ho
  · refine execStartAccept_refused fun n ho => ?_
    obtain ⟨hn, hpos, hmax⟩ := count_of_accept hc ho
    omega
  · exact (execTailZero_of_valid hc n k).trans (if_neg (by omega))

/-! ### TAIL_ZERO (R97) -/

theorem zeroTail_sameControl (s : State) (k : Nat) : SameControl s (zeroTail s k) :=
  ⟨rfl, rfl, rfl, rfl, rfl, rfl, rfl⟩

/-- Settles O45: in the tail TAIL_ZERO is one write of 0 to TB. -/
theorem tailZeroClearsItsByte : Obligations.TailZeroClearsItsByte := by
  intro n k s hc h1 hmax hk hlt
  refine ⟨_, (execTailZero_of_valid hc n k).trans (if_pos ⟨h1, hmax, hk, hlt⟩), ?_, ?_, rfl, rfl,
    zeroTail_sameControl s k, rfl, rfl⟩
  · exact Memory.read_write_same s.tb k _
  · exact fun b hb => Memory.read_write_other s.tb _ hb

/-! ### The function operations (R94, R95, R102, R105, R110) -/

theorem expand8_of_valid {c : Config} (h : c.Valid) (v : Byte) :
    expand8 c v = [7, 6, 5, 4, 3, 2, 1, 0].map (fun j => if v.getLsbD j then 0x1F#8 else 0x03#8) := by
  simp only [← sym_of_valid h]
  rfl

theorem pixel24_of_valid {c : Config} (h : c.Valid) (px : Pixel) :
    pixel24 c px = [px.g, px.r, px.b].flatMap (expand8 c) := by
  obtain ⟨h0, h1, h2⟩ := chan_of_valid h px
  rw [pixel24, h0, h1, h2]
  rfl

theorem execEncode_of_pos {pixels : List Pixel} (h : 1 ≤ pixels.length) (s : State) :
    execEncode pixels s = .next (produce s (encodePixels s.cfg pixels)) := if_pos h

/-- Settles O44: each operation answers `produce` of its rule's bytes, which touches `State.out` only. -/
theorem functionOperationsProduceTheirBytes : Obligations.FunctionOperationsProduceTheirBytes := by
  intro s hc
  refine ⟨?_, ?_, fun v => ?_, fun px => ?_, fun pixels hp => ?_⟩
  · exact ⟨_, rfl, congrArg ([·]) (sym_of_valid hc true), produce_sameMachine s _⟩
  · exact ⟨_, rfl, congrArg ([·]) (sym_of_valid hc false), produce_sameMachine s _⟩
  · exact ⟨_, rfl, expand8_of_valid hc v, produce_sameMachine s _⟩
  · refine ⟨_, rfl, ?_, produce_sameMachine s _⟩
    rw [produce_out, pixel24_of_valid hc, funext (expand8_of_valid hc)]
  · exact ⟨_, execEncode_of_pos hp s, rfl, encodePixels_length hc pixels, produce_sameMachine s _⟩

end Sys2Proof.Machine
end

section
/-! PROOFS. Channels and pixels (41_channel_pixel.md): the order of the symbols of a byte and of a pixel, and that the
expansions lose nothing. -/

namespace Sys2Proof.Machine

/-! ### The order of the symbols (R103, R106, R107) -/

/-- Settles O38: the elements of `expand8` by position. -/
theorem expandIsMostSignificantBitFirst : Obligations.ExpandIsMostSignificantBitFirst := fun c v =>
  ⟨expand8_length c v, fun _ hi => expand8_getElem? c v hi⟩

theorem eq_or_of_mem_pixel24 {c : Config} (h : c.Valid) {px : Pixel} {x : Byte} (hx : x ∈ pixel24 c px) :
    x = 0x1F#8 ∨ x = 0x03#8 := by
  obtain ⟨j, hj, rfl⟩ := List.getElem_of_mem hx
  have hsym : (pixel24 c px)[j] = symbolAt c px j :=
    List.getElem_eq_iff hj |>.2 (pixel24_getElem? h px (pixel24_length c px ▸ hj))
  exact hsym ▸ symbolAt_eq_or h px j

/-- Settles O39: slots 0, 1, 2 hold green, red, blue, and every element is a symbol. -/
theorem pixelIsGreenRedBlue : Obligations.PixelIsGreenRedBlue := by
  intro c px hc
  obtain ⟨hg, hr, hb⟩ := chan_of_valid hc px
  refine ⟨pixel24_length c px, fun i hi => ⟨?_, ?_, ?_⟩, fun x => eq_or_of_mem_pixel24 hc⟩
  · simpa [hg, bit] using pixel24_getElem?_slot c px 0 hi
  · simpa [hr, bit] using pixel24_getElem?_slot c px 1 hi
  · simpa [hb, bit] using pixel24_getElem?_slot c px 2 hi

/-! ### The expansions lose nothing (R98, R102, R105, R110) -/

theorem sym_injective {c : Config} (h : c.Valid) : Function.Injective (sym c) := fun b b' hbb' =>
  Option.some.inj (by rw [← unsym_sym h b, hbb', unsym_sym h b'])

/-- Bit `j` of a byte is read back from element `7 - j` of its expansion. -/
theorem expand8_injective {c : Config} (h : c.Valid) : Function.Injective (expand8 c) := by
  intro v v' hvv'
  refine BitVec.eq_of_getLsbD_eq fun j hj => ?_
  have hsym : sym c (bit v (7 - (7 - j))) = sym c (bit v' (7 - (7 - j))) := Option.some.inj <| by
    rw [← expand8_getElem? c v (by omega), ← expand8_getElem? c v' (by omega), hvv']
  rw [Nat.sub_sub_self (by omega)] at hsym
  exact sym_injective h hsym

theorem pixel24_injective {c : Config} (h : c.Valid) : Function.Injective (pixel24 c) := by
  intro px px' hpx
  obtain ⟨hg, hr, hb⟩ := chan_of_valid h px
  obtain ⟨hg', hr', hb'⟩ := chan_of_valid h px'
  rw [pixel24, pixel24, hg, hr, hb, hg', hr', hb'] at hpx
  obtain ⟨hgr, hblue⟩ := List.append_inj hpx rfl
  obtain ⟨hgreen, hred⟩ := List.append_inj hgr rfl
  have hinj := expand8_injective h
  cases px
  cases px'
  rw [Pixel.mk.injEq]
  exact ⟨hinj hred, hinj hgreen, hinj hblue⟩

/-- The pixel region splits into its pixels, since each has 24 bytes. -/
theorem flatMap_pixel24_injective {c : Config} (h : c.Valid) :
    Function.Injective (List.flatMap (pixel24 c)) := by
  intro ps ps' hps
  induction ps generalizing ps' with
  | nil =>
    cases ps' with
    | nil => rfl
    | cons px' ps' => cases hps
  | cons px ps ih =>
    cases ps' with
    | nil => cases hps
    | cons px' ps' =>
      obtain ⟨hpx, hrest⟩ := List.append_inj hps (by rw [pixel24_length, pixel24_length])
      rw [pixel24_injective h hpx, ih hrest]

/-- Equal frames have equal pixel regions, since their tails are equal. -/
theorem encodePixels_injective {c : Config} (h : c.Valid) : Function.Injective (encodePixels c) := fun _ _ hps =>
  flatMap_pixel24_injective h (List.append_cancel_right hps)

/-- Settles O43: each expansion is injective, since `sym` has an inverse and the parts have fixed lengths. -/
theorem frameDeterminesThePixels : Obligations.FrameDeterminesThePixels := fun _ hc =>
  ⟨fun _ _ h => expand8_injective hc h, fun _ _ h => pixel24_injective hc h, fun _ _ h => encodePixels_injective hc h⟩

end Sys2Proof.Machine
end

section
/-! PROOFS. Frames (42_frame.md R112 to R115, R121): what a START request does in each of its cases, by the request and
by the internal operation run alone. -/

namespace Sys2Proof.Machine

/-! ### The outcome decides (R112) -/

theorem exec_wrCtrl_of_request {v : Word} (hv : v.getLsbD 0 = true) (s : State) :
    exec (.wrCtrl v) s = .next (respond (startRequest s) none) :=
  if_pos hv

theorem exec_wrCtrl_of_no_request {v : Word} (hv : v.getLsbD 0 = false) (s : State) :
    exec (.wrCtrl v) s = .next (respond s none) :=
  if_neg (Bool.eq_false_iff.1 hv)

theorem startRequest_of_busy {s : State} (hb : s.status.phase = .busy) : startRequest s = ignoreStart s := by
  rw [startRequest, startOutcome_eq_ignore.2 hb]

theorem startRequest_of_reject {s : State} {e : Err} (h : startOutcome s.cfg s.status.phase s.nReg = .reject e) :
    startRequest s = reportError s e := by
  rw [startRequest, h]

theorem startRequest_of_accept {s : State} {n : Nat} (h : startOutcome s.cfg s.status.phase s.nReg = .accept n) :
    startRequest s = acceptStart s n := by
  rw [startRequest, h]

theorem exec_startIgnore_of_busy {s : State} (hb : s.status.phase = .busy) :
    exec .startIgnore s = .next (ignoreStart s) := by
  rw [exec, execStartIgnore, startOutcome_eq_ignore.2 hb]

theorem exec_startReject_of_reject {s : State} {e : Err} (h : startOutcome s.cfg s.status.phase s.nReg = .reject e) :
    exec .startReject s = .next (reportError s e) := by
  rw [exec, execStartReject, h]

theorem exec_startAccept_of_accept {s : State} {n : Nat} (h : startOutcome s.cfg s.status.phase s.nReg = .accept n) :
    exec .startAccept s = .next (acceptStart s n) := by
  rw [exec, execStartAccept, h]

/-! ### The three outcomes (R113 to R115) -/

/-- Settles O28: `ignoreStart` sets `OVR` and writes no other field. -/
theorem startIgnoreSetsOverrunOnly : Obligations.StartIgnoreSetsOverrunOnly := fun _ hb =>
  ⟨_, exec_startIgnore_of_busy hb, rfl, rfl, rfl, rfl, rfl, rfl, rfl, rfl, rfl, rfl, rfl, rfl, rfl⟩

/-- Settles O29: the two invalid counts are the two rejections of `startOutcome`, and `reportError` writes STATUS and
`LEN` only. -/
theorem startRejectReportsTheError : Obligations.StartRejectReportsTheError := fun _ _ hc hb hcount =>
  ⟨_, exec_startReject_of_reject ((startOutcome_eq_reject hc).2 ⟨hb, hcount⟩), rfl, rfl, rfl, rfl, rfl, rfl, rfl, rfl,
    rfl, rfl, rfl, rfl, rfl⟩

/-- The length of a frame that the block can hold fits `LEN` (R13, R29). -/
theorem toNat_ofNat_frameLength {c : Config} (h : c.Valid) {n : Nat} (hn : n ≤ c.nMax) :
    (BitVec.ofNat 32 (24 * n + 40)).toNat = 24 * n + 40 := by
  have hlen := (frameLen_le_iff h n).2 hn
  have hcap := h.2.2
  rw [frameLen_of_valid h] at hlen
  rw [BitVec.toNat_ofNat]
  omega

theorem read_acceptStart_tb {s : State} (h : s.cfg.Valid) (n a : Nat) :
    Memory.read (acceptStart s n).tb a = if a < 24 * n + 40 then some 0x00#8 else Memory.read s.tb a := by
  rw [acceptStart_tb, Memory.read_zeroFirst, frameLen_of_valid h]
  rfl

theorem acceptStart_sameFrom {s : State} (h : s.cfg.Valid) (n : Nat) :
    SameFrom s.tb (acceptStart s n).tb (24 * n + 40) := fun a ha =>
  (read_acceptStart_tb h n a).trans (if_neg (Nat.not_lt.2 ha))

/-- Settles O30: `acceptStart` zeroes the bytes of the frame and no other. -/
theorem startAcceptBeginsTheFrame : Obligations.StartAcceptBeginsTheFrame := by
  intro s n hc hs
  refine ⟨_, exec_startAccept_of_accept (startOutcome_of_startsFrame hc hs), rfl, rfl,
    fun a ha => (read_acceptStart_tb hc n a).trans (if_pos ha), acceptStart_sameFrom hc n, ?_,
    rfl, rfl, rfl, rfl, rfl, rfl, rfl, rfl, rfl⟩
  rw [acceptStart_len, frameLen_of_valid hc]
  exact toNat_ofNat_frameLength hc hs.2.2.2

/-! ### The request (R112, R121) -/

/-- The request leaves the block as the START it leads to does (R127). -/
theorem exec_wrCtrl_sameBlock {v : Word} {s u : State} (hv : v.getLsbD 0 = true) (hu : startRequest s = u) :
    ∃ t, exec (.wrCtrl v) s = .next t ∧ SameBlock u t :=
  ⟨_, exec_wrCtrl_of_request hv s, hu ▸ (respond_sameMachine _ none).1⟩

/-- Settles O27: each condition is that of one value of `startOutcome`, from which the request and the internal
operation both follow. -/
theorem startRequestDispatch : Obligations.StartRequestDispatch := by
  intro v s hc
  refine ⟨fun hv => ?_, fun hv hb => ?_, fun hv hb hn => ?_, fun hv hb hn hl => ?_, fun hv hb hn hl => ?_, ?_⟩
  · exact ⟨_, exec_wrCtrl_of_no_request hv s, respond_sameMachine s none⟩
  · obtain ⟨t, ht, hsame⟩ := exec_wrCtrl_sameBlock hv (startRequest_of_busy hb)
    exact ⟨t, ht, hsame, exec_startIgnore_of_busy hb⟩
  · have ho := (startOutcome_eq_reject hc).2 ⟨hb, .inl ⟨hn, rfl⟩⟩
    obtain ⟨t, ht, hsame⟩ := exec_wrCtrl_sameBlock hv (startRequest_of_reject ho)
    exact ⟨t, ht, hsame, exec_startReject_of_reject ho⟩
  · have ho := (startOutcome_eq_reject hc).2 ⟨hb, .inr ⟨hn, hl, rfl⟩⟩
    obtain ⟨t, ht, hsame⟩ := exec_wrCtrl_sameBlock hv (startRequest_of_reject ho)
    exact ⟨t, ht, hsame, exec_startReject_of_reject ho⟩
  · have hfits : frameLen s.cfg s.nReg.toInt.toNat ≤ s.cfg.tbCapacity := by
      rw [frameLen_of_valid hc]
      omega
    have ho := startOutcome_eq_accept.2 ⟨hb, (Int.toNat_of_nonneg hn.le).symm, by omega, hfits⟩
    obtain ⟨t, ht, hsame⟩ := exec_wrCtrl_sameBlock hv (startRequest_of_accept ho)
    exact ⟨t, ht, hsame, exec_startAccept_of_accept ho⟩
  · have hcap := hc.2.1
    rw [hc.nMax]
    omega

/-- Settles O31: `ignoreStart` and `reportError` write neither memory, and an accepted request is excluded, since it
leads from outside BUSY into BUSY. -/
theorem unacceptedStartWritesNoMemory : Obligations.UnacceptedStartWritesNoMemory := by
  rintro i s t (⟨v, rfl⟩ | rfl | rfl) h hphase
  · cases hv : v.getLsbD 0 with
    | false =>
      obtain rfl := next_inj ((exec_wrCtrl_of_no_request hv s).symm.trans h)
      refine ⟨rfl, rfl, ?_⟩
      rintro - (⟨v', hi, hv'⟩ | hi) <;> cases hi
      exact absurd (hv.symm.trans hv') nofun
    | true =>
      obtain rfl := next_inj ((exec_wrCtrl_of_request hv s).symm.trans h)
      rcases startRequest_cases s with ⟨hb, hs⟩ | ⟨e, -, -, hs⟩ | ⟨n, hb, -, -, -, hs⟩ <;> rw [hs] at hphase ⊢
      · exact ⟨rfl, rfl, fun hb' _ => absurd hb hb'⟩
      · exact ⟨rfl, rfl, fun _ _ => rfl⟩
      · exact (hphase.elim hb (· rfl)).elim
  · obtain ⟨e, -, -, rfl⟩ := execStartReject_cases h
    exact ⟨rfl, rfl, fun _ _ => rfl⟩
  · obtain ⟨hb, rfl⟩ := execStartIgnore_cases h
    exact ⟨rfl, rfl, fun hb' _ => absurd hb hb'⟩

end Sys2Proof.Machine
end

section
/-! PROOFS. Frames (42_frame.md R110, R111, R116 to R119): the elements of a frame, what one engine step writes, that
every step that records no fault keeps the engine's progress, and what the completed frame holds. -/

namespace Sys2Proof.Machine

/-! ### The elements of a frame (R110, R111) -/

/-- Settles O40: an index of the pixel region splits into its pixel and the place within it. -/
theorem frameElements : Obligations.FrameElements := by
  intro c pixels hc
  refine ⟨encodePixels_length hc pixels, fun p j hp hj => ?_, fun i hi => ?_⟩
  · have hdiv : (24 * p + j) / 24 = p := by omega
    have hmod : (24 * p + j) % 24 = j := by omega
    rw [encodePixels_getElem?_pixel hc pixels (by rwa [hdiv]), pixel24_getElem? hc _ hj, ← symbolAt_mod hc, hmod]
    simp only [hdiv]
  · exact encodePixels_getElem?_tail hc pixels (by omega) (by omega)

@[simp] theorem pixelsIn_length (m : Memory) (n : Nat) : (pixelsIn m n).length = n := by simp [pixelsIn]

/-- The frame of the pixels in PM, byte by byte (R118). -/
theorem encodePixels_pixelsIn_getElem? {c : Config} (h : c.Valid) (m : Memory) {n a : Nat} (ha : a < 24 * n + 40) :
    (encodePixels c (pixelsIn m n))[a]? = some (frameByte c m n a) := by
  have hlen := pixelsIn_length m n
  rw [frameByte]
  split
  · rw [encodePixels_getElem?_pixel h _ (by omega), pixelIndex_of_valid h]
    simp only [pixelsIn, List.getElem_map, List.getElem_range]
  · exact encodePixels_getElem?_tail h _ (by omega) (by omega)

/-- After its last engine step a frame is in TB as `encode` gives it (R118). -/
theorem Encoding.holdsFrame {c : Config} {m : Memory} {n : Nat} {t : State} (hc : c.Valid)
    (he : Encoding c m n (24 * n) t) : HoldsFrame t (pixelsIn m n) := by
  intro a ha
  rw [pixelsIn_length] at ha
  rw [he.read_tb ha, he.cfg, encodePixels_pixelsIn_getElem? hc m ha]

/-! ### One engine step (R116) -/

@[simp] theorem advanceEngine_nReg (s : State) : (advanceEngine s).nReg = s.nReg := by
  simp [advanceEngine]
@[simp] theorem advanceEngine_engPx (s : State) : (advanceEngine s).engPx = (latchIfFirst s).engPx := by
  simp [advanceEngine]
@[simp] theorem advanceEngine_faults (s : State) : (advanceEngine s).faults = (latchIfFirst s).faults := by
  simp [advanceEngine]
@[simp] theorem advanceEngine_tb (s : State) :
    (advanceEngine s).tb = Memory.write s.tb s.engK (symbolAt s.cfg (advanceEngine s).engPx s.engK) := by
  simp [advanceEngine]

theorem exec_engineStep_of_busy {s : State} (hb : s.status.phase = .busy) :
    exec .engineStep s = .next (advanceEngine s) :=
  if_pos hb

theorem latchIfFirst_of_first {s : State} (h : s.cfg.Valid) (hk : s.engK % 24 = 0) :
    latchIfFirst s = latchPixel s (s.engK / 24) := by
  rw [latchIfFirst_eq h, if_pos hk, pixelIndex_of_valid h]

theorem latchIfFirst_of_later {s : State} (h : s.cfg.Valid) (hk : s.engK % 24 ≠ 0) : latchIfFirst s = s := by
  rw [latchIfFirst_eq h, if_neg hk]

/-- The three PM bytes of a pixel, by index and by channel (R46). -/
theorem exists_pmIndex_iff {p : Nat} {P : Nat → Prop} :
    (∃ ch, P (pmIndex p ch)) ↔ ∃ a, 3 * p ≤ a ∧ a < 3 * p + 3 ∧ P a := by
  constructor
  · rintro ⟨ch, h⟩
    exact ⟨_, by cases ch <;> simp [pmIndex], by cases ch <;> simp [pmIndex], h⟩
  · rintro ⟨a, hle, hlt, h⟩
    obtain rfl | rfl | rfl : a = 3 * p ∨ a = 3 * p + 1 ∨ a = 3 * p + 2 := by omega
    · exact ⟨.red, h⟩
    · exact ⟨.green, h⟩
    · exact ⟨.blue, h⟩

/-- Settles O46: one write to TB, after the pixel read at the first byte of a pixel and before the completion. -/
theorem engineStepWritesOneSymbol : Obligations.EngineStepWritesOneSymbol := by
  intro s hc hb
  have hst := advanceEngine_status hc
  refine ⟨_, exec_engineStep_of_busy hb, ?_, fun b hne => ?_, advanceEngine_engK s, fun hk => ?_, fun hk => ?_, ?_, ?_,
    ?_, ?_, by simp, by simp, by simp, by simp, by simp [SameOutside]⟩
  · rw [advanceEngine_tb, Memory.read_write_same]
    exact congrArg some (symbolAt_of_valid hc _ _)
  · rw [advanceEngine_tb, Memory.read_write_other _ _ hne]
  · rw [advanceEngine_engPx, advanceEngine_faults, latchIfFirst_of_later hc hk]
    exact ⟨rfl, rfl⟩
  · rw [advanceEngine_engPx, advanceEngine_faults, latchIfFirst_of_first hc hk]
    refine ⟨fun v => latchPixel_channel (ch := .red), fun v => latchPixel_channel (ch := .green),
      fun v => latchPixel_channel (ch := .blue), fun f => ?_⟩
    rw [mem_latchPixel, exists_pmIndex_iff (P := fun a => Memory.read s.pm a = none ∧ f = .uninitPm a)]
  all_goals
    rw [hst]
    split <;> simp [statusDone, *]

/-! ### Every step keeps the progress (R63, R118) -/

/-- From `s` to `t` a frame is begun, goes on or is completed. -/
def FrameGoesOn (s t : State) : Prop :=
  t.status.phase = .busy ∨ (s.status.phase = .busy ∧ t.status.phase = .done)

theorem FrameGoesOn.busy_of_same_phase {s t : State} (h : FrameGoesOn s t) (hp : t.status.phase = s.status.phase) :
    s.status.phase = .busy :=
  h.elim (fun hb => hp ▸ hb) And.left

/-- A fault recorded in BUSY leaves the fault set non-empty (R160, R161). -/
theorem faultIfBusy_faults_ne_nil {s : State} (f : Fault) (hb : s.status.phase = .busy) :
    (faultIfBusy s f).faults ≠ [] :=
  List.ne_nil_of_mem (mem_faultIfBusy.2 (.inr ⟨hb, rfl⟩))

/-- An engine step that records no fault has found every byte of its pixel written, if it is one that reads a pixel
(R162). -/
theorem latchIfFirst_engPx_of_no_fault {s : State} (h : s.cfg.Valid) (hf : (latchIfFirst s).faults = [])
    (hpx : s.engK % 24 ≠ 0 → s.engPx = pixelAt s.pm (pixelIndex s.cfg s.engK)) :
    (latchIfFirst s).engPx = pixelAt s.pm (pixelIndex s.cfg s.engK) := by
  rw [latchIfFirst_eq h] at hf ⊢
  split
  · rw [if_pos ‹_›] at hf
    refine latchPixel_of_written fun ch => Option.ne_none_iff_isSome.1 fun hnone => ?_
    exact List.ne_nil_of_mem (mem_latchPixel.2 (.inr ⟨ch, hnone, rfl⟩)) hf
  · exact hpx ‹_›

theorem advanceEngine_writtenUpTo_of_no_fault {s : State} (h : s.cfg.Valid) (hf : (advanceEngine s).faults = [])
    (hw : WrittenUpTo s) : WrittenUpTo (advanceEngine s) := by
  have hpx := latchIfFirst_engPx_of_no_fault h (by simpa using hf) hw.2.2
  exact completeIfLast_writtenUpTo
    (writeSymbol_writtenUpTo (by simpa using h) (by simpa using hpx) (latchIfFirst_writtenUpTo hw hpx))

theorem WrittenUpTo.of_sameBlock {s t : State} (h : WrittenUpTo s) (hst : SameBlock s t) : WrittenUpTo t := by
  obtain ⟨hcfg, -, -, -, hengK, hengN, hpx, hpm, htb, -⟩ := hst
  simpa only [WrittenUpTo, hcfg, hengK, hengN, hpx, hpm, htb] using h

/-- Every update that records no fault keeps the progress; TAIL_ZERO, which could clear a byte of the frame, is no
step's (log 7). -/
theorem Update.writtenUpTo {i : Instr} {s u : State} (hu : Update i s u) (hc : s.cfg.Valid)
    (hz : ∀ n k, i ≠ .tailZero n k) (hf : u.faults = []) (h : FrameSoFar s) (hgo : FrameGoesOn s u) :
    WrittenUpTo u := by
  cases hu with
  | nothing => exact h (hgo.busy_of_same_phase rfl)
  | setsCount v => exact h (hgo.busy_of_same_phase rfl)
  | ignoresStart hi hb => exact h hb
  | rejectsStart hi hb he => exact absurd (hgo.elim nofun And.left) hb
  | acceptsStart hi hb hn hl => exact acceptStart_writtenUpTo _ hc
  | storesPm a d | storesTb a d =>
    have hb := hgo.busy_of_same_phase (by simp)
    exact absurd (by simpa using hf) (faultIfBusy_faults_ne_nil _ hb)
  | zeroesTail hn hk => exact absurd rfl (hz _ _)
  | advances hb => exact advanceEngine_writtenUpTo_of_no_fault hc hf (h hb)
  | resets => rcases hgo with hp | ⟨-, hp⟩ <;> cases hp

theorem exec_writtenUpTo {i : Instr} {s t : State} (he : exec i s = .next t) (hc : s.cfg.Valid)
    (hz : ∀ n k, i ≠ .tailZero n k) (hf : t.faults = []) (h : FrameSoFar s) (hgo : FrameGoesOn s t) :
    WrittenUpTo t := by
  obtain ⟨u, hu, hsame, -⟩ := exec_cases he
  have ⟨_, _, hst, _, _, _, _, _, _, hfaults⟩ := hsame
  refine (hu.writtenUpTo hc hz (hfaults ▸ hf) h ?_).of_sameBlock hsame
  simpa only [FrameGoesOn, hst] using hgo

/-- A host transaction is no TAIL_ZERO, which has no word (R92). -/
theorem decode_ne_tailZero (w : Htw) (n k : Nat) : decode w ≠ .tailZero n k := fun h => by
  have henc := (decode_canonical Config.reference w).2
  rw [h] at henc
  cases henc

theorem SessionMoves.writtenUpTo {s t : State} (hm : SessionMoves s t) (hc : s.cfg.Valid) (hf : t.faults = [])
    (h : FrameSoFar s) (hgo : FrameGoesOn s t) : WrittenUpTo t := by
  obtain ⟨j, w, u, -, -, hu, rfl⟩ | ⟨j, -, -, rfl⟩ | ⟨-, rfl⟩ := hm
  · exact (exec_writtenUpTo hu hc (decode_ne_tailZero w) hf h hgo :)
  · exact h (hgo.busy_of_same_phase rfl)
  · exact h (hgo.busy_of_same_phase rfl)

theorem Moves.writtenUpTo {x : Option Input} {u t : State} (hm : Moves x u t) (hc : u.cfg.Valid) (hf : t.faults = [])
    (h : FrameSoFar u) (hgo : FrameGoesOn u t) : WrittenUpTo t := by
  obtain ⟨i, hi, he⟩ | hs | ⟨c, -, -, rfl⟩ | rfl := hm
  · refine exec_writtenUpTo he hc (fun n k => ?_) hf h hgo
    rcases hi with ⟨w, -, rfl⟩ | rfl | ⟨-, rfl⟩
    · exact decode_ne_tailZero w n k
    · nofun
    · nofun
  · exact hs.writtenUpTo hc hf h hgo
  · exact h (hgo.busy_of_same_phase rfl)
  · exact h (hgo.busy_of_same_phase rfl)

theorem step_writtenUpTo {s t : State} (hstep : step s = .next t) (hc : s.cfg.Valid) (hf : t.faults = [])
    (h : FrameSoFar s) (hgo : FrameGoesOn s t) : WrittenUpTo t := by
  obtain ⟨x, rest, -, hm⟩ := step_cases hstep
  exact hm.writtenUpTo hc hf h hgo

/-- Settles O47: in BUSY a step has begun the frame or carried it on. -/
theorem stepKeepsFrameProgress : Obligations.StepKeepsFrameProgress := fun _ _ hc h hstep hf hb =>
  step_writtenUpTo hstep hc hf h (.inl hb)

/-- Settles O48: the completing step keeps the progress, and by the invariant nothing of the frame is then missing. -/
theorem completionLeavesTheEncodedFrame : Obligations.CompletionLeavesTheEncodedFrame := by
  intro s t hinv h hb hstep hf hd
  have htinv := stepKeepsInvariant s t hinv hstep
  have hw := step_writtenUpTo hstep hinv.cfg_valid hf h (.inr ⟨hb, hd⟩)
  obtain ⟨-, -, hk, hlen⟩ := htinv.done hd
  have he : Encoding t.cfg t.pm t.engN (24 * t.engN) t :=
    ⟨rfl, rfl, rfl, hk, hlen, fun hb' => absurd (hd.symm.trans hb') nofun, hw⟩
  refine ⟨he.holdsFrame htinv.cfg_valid, ?_⟩
  rw [hlen, toNat_ofNat_frameLength htinv.cfg_valid htinv.engN_le, encodePixels_length htinv.cfg_valid, pixelsIn_length]

/-! ### An accepted frame is encoded (R115, R118, R119) -/

theorem recordLoad_of_written {s : State} {a : Nat} (h : (Memory.read s.pm a).isSome = true) : recordLoad s a = s := by
  obtain ⟨v, hv⟩ := Option.isSome_iff_exists.1 h
  simp only [recordLoad, hv]

/-- A pixel read of written bytes records nothing (R162). -/
theorem latchIfFirst_faults_of_written {s : State} (h : s.cfg.Valid)
    (hpm : ∀ ch, (Memory.read s.pm (pmIndex (pixelIndex s.cfg s.engK) ch)).isSome = true) :
    (latchIfFirst s).faults = s.faults := by
  rw [latchIfFirst_eq h]
  split
  · simp only [latchPixel, recordLoad_of_written (hpm _)]
  · rfl

/-- `k` engine steps into a frame of `n` pixels that a START in `s₀` began: besides the bytes written, the status, and
the faults and the rest of TB, which are as in `s₀`. -/
structure FrameRun (s₀ : State) (n k : Nat) (s : State) : Prop where
  encoding : Encoding s₀.cfg s₀.pm n k s
  status : s.status = if k = 24 * n then statusDone statusBusy else statusBusy
  faults : s.faults = s₀.faults
  tb_rest : SameFrom s₀.tb s.tb (24 * n + 40)

theorem frameRun_of_start {s : State} {n : Nat} (hc : s.cfg.Valid) (hs : StartsFrame s n) :
    ∃ t, exec (.wrCtrl 1#32) s = .next t ∧ FrameRun s n 0 t := by
  have h := exec_wrCtrl_of_request (v := 1#32) rfl s
  rw [startRequest_of_accept (startOutcome_of_startsFrame hc hs)] at h
  have hn := hs.2.2.1
  refine ⟨_, h, encoding_of_start hc hs h, (if_neg (by omega)).symm, rfl, acceptStart_sameFrom hc n⟩

theorem FrameRun.engineStep {s₀ s : State} {n k : Nat} (hc : s₀.cfg.Valid) (hm : PixelsWritten s₀.pm n)
    (hk : k < 24 * n) (hr : FrameRun s₀ n k s) : ∃ t, exec .engineStep s = .next t ∧ FrameRun s₀ n (k + 1) t := by
  obtain ⟨he, hst, hf, htb⟩ := hr
  rw [if_neg hk.ne] at hst
  have hcs : s.cfg.Valid := he.cfg ▸ hc
  have hstep := exec_engineStep_of_busy (s := s) (by rw [hst]; rfl)
  refine ⟨_, hstep, he.engineStep hc hm hstep, ?_, ?_, fun b hb => ?_⟩
  · rw [advanceEngine_status hcs, he.engK, he.engN, hst]
  · have hp : pixelIndex s.cfg s.engK < n := by
      rw [pixelIndex_of_valid hcs, he.engK]
      omega
    rw [advanceEngine_faults, latchIfFirst_faults_of_written hcs (he.pm ▸ hm.pixel hp), hf]
  · rw [advanceEngine_tb, Memory.read_write_other _ _ (by rw [he.engK]; omega)]
    exact htb b hb

theorem FrameRun.runEngine {s₀ : State} {n : Nat} (hc : s₀.cfg.Valid) (hm : PixelsWritten s₀.pm n) (j : Nat) :
    ∀ {k : Nat} {s : State}, k + j = 24 * n → FrameRun s₀ n k s →
      ∃ t, runEngine j s = .next t ∧ FrameRun s₀ n (24 * n) t := by
  induction j with
  | zero =>
    intro k s hk hr
    exact ⟨s, rfl, hk ▸ hr⟩
  | succ j ih =>
    intro k s hk hr
    obtain ⟨u, hu, hru⟩ := hr.engineStep hc hm (by omega)
    obtain ⟨t, ht, hrt⟩ := ih (by omega) hru
    exact ⟨t, by simpa only [Machine.runEngine, hu] using ht, hrt⟩

/-- A START request that is accepted, and its `24 n` engine steps (R119). -/
theorem frameRun_of_runFrame {s : State} {n : Nat} (hc : s.cfg.Valid) (hs : StartsFrame s n)
    (hm : PixelsWritten s.pm n) : ∃ t, runFrame s = .next t ∧ FrameRun s n (24 * n) t := by
  obtain ⟨u, hu, hru⟩ := frameRun_of_start hc hs
  obtain ⟨t, ht, hrt⟩ := hru.runEngine hc hm (24 * n) (Nat.zero_add _)
  exact ⟨t, by simpa only [runFrame, hu, hru.encoding.engN] using ht, hrt⟩

/-- Settles O49: the run ends in DONE with every byte of the frame written. -/
theorem acceptedFrameIsEncoded : Obligations.AcceptedFrameIsEncoded := by
  intro s n hc hs hm
  obtain ⟨t, ht, he, hst, hf, htb⟩ := frameRun_of_runFrame hc hs hm
  rw [if_pos rfl] at hst
  refine ⟨t, ht, by rw [hst]; rfl, by rw [hst]; rfl, by rw [hst]; rfl, ?_, he.engN, he.engK, he.holdsFrame hc, he.pm,
    hf, htb⟩
  rw [he.len]
  exact toNat_ofNat_frameLength hc hs.2.2.2

/-! ### The engine needs no host (R119, R191) -/

theorem run_succ_of_step (m : Nat) {s u : State} (h : step s = .next u) :
    Host.Core.run core (m + 1) s = Host.Core.run core m u := by
  have hstep : core.step s = .next u := h
  simp only [Host.Core.run, hstep]

/-- `m` steps with nothing asked for, up to the last of the frame: STATUS stays until then. -/
theorem run_unprompted (m : Nat) : ∀ {s : State}, s.cfg.Valid → s.status.phase = .busy → s.inputs = [] →
    s.engK < 24 * s.engN → s.engK + m ≤ 24 * s.engN →
    ∃ t, Host.Core.run core m s = .next t ∧
      State.status t = if s.engK + m = 24 * s.engN then statusDone s.status else s.status := by
  induction m with
  | zero =>
    intro s _ _ _ hlt _
    exact ⟨s, rfl, (if_neg hlt.ne).symm⟩
  | succ m ih =>
    intro s hc hb hin hlt hle
    have hrun := run_succ_of_step m ((step_unprompted_busy hin hb).trans (exec_engineStep_of_busy hb))
    have hst := advanceEngine_status hc
    rw [hrun]
    by_cases hlast : s.engK + 1 = 24 * s.engN
    · obtain rfl : m = 0 := by omega
      exact ⟨_, rfl, hst⟩
    · rw [if_neg hlast] at hst
      obtain ⟨t, ht, htst⟩ := ih (s := advanceEngine s) (by simpa using hc) (by rwa [hst]) (by simpa using hin)
        (by simp only [advanceEngine_engK, advanceEngine_engN]; omega)
        (by simp only [advanceEngine_engK, advanceEngine_engN]; omega)
      refine ⟨t, ht, ?_⟩
      rw [htst, hst, advanceEngine_engK, advanceEngine_engN, Nat.add_right_comm, Nat.add_assoc]

/-- Settles O52: the steps up to the last of the frame keep STATUS, and the last completes it. -/
theorem engineFinishesOnItsOwn : Obligations.EngineFinishesOnItsOwn := by
  intro s hinv hb hin
  obtain ⟨-, -, hlt, -⟩ := hinv.busy hb
  refine ⟨?_, fun m hm => ?_⟩
  · obtain ⟨t, ht, hst⟩ := run_unprompted (24 * s.engN - s.engK) hinv.cfg_valid hb hin hlt (by omega)
    exact ⟨t, ht, hst.trans (if_pos (by omega))⟩
  · obtain ⟨t, ht, hst⟩ := run_unprompted m hinv.cfg_valid hb hin hlt (by omega)
    exact ⟨t, ht, hst.trans (if_neg (by omega))⟩

end Sys2Proof.Machine
end

section
/-! PROOFS. Host transactions (43_host_interface.md R123 to R139): each one completes in its step, and what it answers,
stores and leaves unchanged. -/

namespace Sys2Proof.Machine

/-! ### The turn of a host transaction (R123) -/

theorem tableWord_full (w : Nat) : tableWord 64 w = BitVec.ofNat 64 w :=
  BitVec.eq_of_toNat_eq (by simp [tableWord])

/-- Settles O6: the step takes the word from the inputs and performs it; `withFetchWord` puts it there. -/
theorem hostInputRunsDecodedTransaction : Obligations.HostInputRunsDecodedTransaction :=
  ⟨fun _ _ _ => rfl, fun s w => congrArg (fun x => exec (decode x) s) (tableWord_full w)⟩

/-- Settles O19: every update leaves the inputs and the Bus Session, and so does every answer. -/
theorem operationsLeaveTheOutsideAlone : Obligations.OperationsLeaveTheOutsideAlone :=
  fun _ _ _ => exec_sameOutside

/-! ### The register space (R124 to R133) -/

/-- Settles O22: each read answers with `readRegister` of its index. -/
theorem registerReadsReturnTheRegister : Obligations.RegisterReadsReturnTheRegister := fun s =>
  ⟨⟨_, rfl, rfl, respond_sameMachine s _⟩, ⟨_, rfl, rfl, respond_sameMachine s _⟩,
    ⟨_, rfl, rfl, respond_sameMachine s _⟩, fun _ => ⟨_, rfl, rfl, respond_sameMachine s _⟩⟩

theorem phaseField_statusWord (st : Status) : phaseField (statusWord st) = phaseCode st.phase :=
  BitVec.extractLsb'_append_eq_right

theorem errField_statusWord (st : Status) : errField (statusWord st) = errCode st.err := by
  rw [errField, statusWord, BitVec.extractLsb'_append_eq_of_le (by decide),
    BitVec.extractLsb'_append_eq_of_le (by decide)]
  exact BitVec.extractLsb'_append_eq_right

/-- The bits of a `STATUS` word that belong to no field (R24). -/
theorem statusWord_reserved (st : Status) :
    (statusWord st).extractLsb' 2 2 = 0#2 ∧ (statusWord st).extractLsb' 9 23 = 0#23 := by
  constructor
  · rw [statusWord, BitVec.extractLsb'_append_eq_of_le (by decide)]
    exact BitVec.extractLsb'_append_eq_right
  · rw [statusWord, BitVec.extractLsb'_append_eq_of_le (by decide), BitVec.extractLsb'_append_eq_of_le (by decide),
      BitVec.extractLsb'_append_eq_of_le (by decide)]
    exact BitVec.extractLsb'_append_eq_left

theorem statusWord_ovr (st : Status) : (statusWord st).getLsbD 8 = st.ovr := by
  simp only [statusWord, BitVec.getLsbD_append]
  simp

theorem exec_rdStatus (s : State) : exec .rdStatus s = .next (respond s (some (statusWord s.status))) := rfl

/-- Settles O23: the answer is `statusWord`, taken apart field by field. -/
theorem rdStatusReturnsTheFields : Obligations.RdStatusReturnsTheFields := by
  intro s
  obtain ⟨hblock, hout⟩ := respond_sameMachine s (some (statusWord s.status))
  obtain ⟨hlow, hhigh⟩ := statusWord_reserved s.status
  refine ⟨_, _, exec_rdStatus s, rfl, hblock, hout, ?_, hlow, ?_, statusWord_ovr _, hhigh⟩
  · refine (phaseField_statusWord s.status).trans ?_
    cases s.status.phase <;> rfl
  · refine (errField_statusWord s.status).trans ?_
    cases s.status.err <;> rfl

theorem exec_wrNreg (v : Word) (s : State) : exec (.wrNreg v) s = .next (respond { s with nReg := v } none) := rfl

/-- Settles O24: `N_REG` is the one field written. -/
theorem wrNregStoresTheCount : Obligations.WrNregStoresTheCount := by
  intro v s
  obtain ⟨hblock, hout⟩ := respond_sameMachine { s with nReg := v } none
  exact ⟨_, exec_wrNreg v s, rfl, hblock, hout⟩

/-- Settles O25: each of them only answers. -/
theorem reservedAndReadOnlyAccessesHaveNoEffect : Obligations.ReservedAndReadOnlyAccessesHaveNoEffect := fun s =>
  ⟨fun _ => ⟨_, rfl, respond_sameMachine s _⟩, fun _ => ⟨_, rfl, respond_sameMachine s _⟩,
    fun _ _ => ⟨_, rfl, respond_sameMachine s _⟩, fun _ => ⟨_, rfl, rfl, respond_sameMachine s _⟩,
    fun _ _ => ⟨_, rfl, respond_sameMachine s _⟩⟩

/-! ### Memory reads (R134, R136) -/

/-- What a read at index `a` of a memory with capacity `cap` leaves, where the byte there is `b`, if any. -/
def answerRead (s : State) (cap a : Nat) (b : Option Byte) : State :=
  if cap ≤ a then respond s (some 0#32) else respondByte s b

theorem answerRead_outside (s : State) {cap a : Nat} (b : Option Byte) (ha : cap ≤ a) :
    answerRead s cap a b = respond s (some 0#32) := if_pos ha

theorem answerRead_inside (s : State) {cap a : Nat} (b : Option Byte) (ha : a < cap) :
    answerRead s cap a b = respondByte s b := if_neg (Nat.not_le.2 ha)

theorem answersByte_answerRead (s : State) (cap a : Nat) (b : Option Byte) : AnswersByte s (answerRead s cap a b) := by
  unfold answerRead
  split
  · exact answersByte_zero s
  · exact answersByte_respondByte s b

theorem exec_rdPm (a : Index) (s : State) :
    exec (.rdPm a) s = .next (answerRead s s.cfg.pmCapacity a.toNat (Memory.read s.pm a.toNat)) := by
  simp only [exec, execRdPm, answerRead]
  split <;> rfl

/-- In BUSY no byte of TB is readable, whatever it holds (R136). -/
theorem exec_rdTb (a : Index) (s : State) :
    exec (.rdTb a) s = .next (answerRead s s.cfg.tbCapacity a.toNat
      (if s.status.phase = .busy then none else Memory.read s.tb a.toNat)) := by
  simp only [exec, execRdTb, answerRead]
  split
  · rfl
  · split <;> rfl

/-- Settles O33: past the capacity the answer is 0, below it the byte or a draw. -/
theorem rdPmReturnsTheByte : Obligations.RdPmReturnsTheByte := by
  intro a s
  obtain ⟨⟨hblock, hout⟩, hbyte⟩ := answersByte_answerRead s s.cfg.pmCapacity a.toNat (Memory.read s.pm a.toNat)
  refine ⟨_, exec_rdPm a s, hblock, hout, fun ha => ?_, fun _ _ => hbyte, fun v ha hv => ?_⟩
  · rw [answerRead_outside s _ ha, respond_rdata]
  · rw [answerRead_inside s _ ha, hv]
    rfl

/-- Settles O35: past the capacity the answer is 0, below it the byte or a draw, in BUSY always a draw. -/
theorem rdTbReturnsTheByte : Obligations.RdTbReturnsTheByte := by
  intro a s
  obtain ⟨⟨hblock, hout⟩, hbyte⟩ := answersByte_answerRead s s.cfg.tbCapacity a.toNat
    (if s.status.phase = .busy then none else Memory.read s.tb a.toNat)
  refine ⟨_, exec_rdTb a s, hblock, hout, fun ha => ?_, fun _ _ => hbyte, fun v ha hb hv => ?_⟩
  · rw [answerRead_outside s _ ha, respond_rdata]
  · rw [answerRead_inside s _ ha, if_neg hb, hv]
    rfl

/-! ### Memory writes (R135, R137) -/

theorem exec_wrPm (a : Index) (d : Byte) (s : State) :
    exec (.wrPm a d) s = .next (respond (storePm (faultIfBusy s (.pmWriteBusy a.toNat)) a.toNat d) none) := rfl

theorem exec_wrTb (a : Index) (d : Byte) (s : State) :
    exec (.wrTb a d) s = .next (respond (storeTb (faultIfBusy s (.tbWriteBusy a.toNat)) a.toNat d) none) := rfl

/-- A memory with capacity `cap` after a write at index `a`: below the capacity that byte alone is changed, past it
nothing is (R59, R60). -/
theorem bounded_write_spec {m m' : Memory} {cap a : Nat} {d : Byte}
    (h : m' = if cap ≤ a then m else Memory.write m a d) :
    (a < cap → Memory.read m' a = some d ∧ SameExcept m m' a) ∧ (cap ≤ a → m' = m) := by
  refine ⟨fun ha => ?_, fun ha => h.trans (if_pos ha)⟩
  rw [h, if_neg (Nat.not_le.2 ha)]
  exact ⟨Memory.read_write_same m a d, fun _ hb => Memory.read_write_other m d hb⟩

/-- Settles O34: the fault of BUSY and the store are independent, and neither touches anything else. -/
theorem wrPmStoresTheByte : Obligations.WrPmStoresTheByte := by
  intro a d s
  have hpm := storePm_pm (faultIfBusy s (.pmWriteBusy a.toNat)) a.toNat d
  rw [faultIfBusy_cfg, faultIfBusy_pm] at hpm
  obtain ⟨hinside, houtside⟩ := bounded_write_spec hpm
  refine ⟨_, exec_wrPm a d s, hinside, houtside, fun f => ?_, by simp, by simp [SameControl], by simp [SameOutside]⟩
  rw [respond_faults, storePm_faults, mem_faultIfBusy]

/-- Settles O36: as for PM, with the fault and the capacity of TB. -/
theorem wrTbStoresTheByte : Obligations.WrTbStoresTheByte := by
  intro a d s
  have htb := storeTb_tb (faultIfBusy s (.tbWriteBusy a.toNat)) a.toNat d
  rw [faultIfBusy_cfg, faultIfBusy_tb] at htb
  obtain ⟨hinside, houtside⟩ := bounded_write_spec htb
  refine ⟨_, exec_wrTb a d s, hinside, houtside, fun f => ?_, by simp, by simp [SameControl], by simp [SameOutside]⟩
  rw [respond_faults, storeTb_faults, mem_faultIfBusy]

/-! ### Completion (R123) -/

/-- An operation that has a word, which is a host transaction (R92), answers a next state. -/
theorem exec_completes {i : Instr} {w : Htw} (h : encode i = some w) (s : State) : ∃ t, exec i s = .next t := by
  cases i with
  | rdNreg | wrNreg v | rdCtrl | rdStatus | wrStatus v | rdLen | wrLen v | rdRsvreg i1 | wrRsvreg i1 v | wrPm a d
  | wrTb a d | rdRsvsp a | wrRsvsp a v => exact ⟨_, rfl⟩
  | wrCtrl v =>
    simp only [exec, execWrCtrl]
    split <;> exact ⟨_, rfl⟩
  | rdPm a => exact ⟨_, exec_rdPm a s⟩
  | rdTb a => exact ⟨_, exec_rdTb a s⟩
  | symHigh | symLow | tailZero n k | expand8 v | pixel24 px | encode pixels | startIgnore | startReject
  | startAccept | engineStep | reset => cases h

/-- Settles O9: every word decodes to an operation that has a word. -/
theorem everyHostTransactionCompletes : Obligations.EveryHostTransactionCompletes := fun w =>
  exec_completes (decode_canonical Config.reference w).2

end Sys2Proof.Machine
end

section
/-! PROOFS. Bus Session (43_host_interface.md R141 to R149): its turn inside a send, its calls, the life of a handle,
and the one transfer that ends a send. -/

namespace Sys2Proof.Machine

/-! ### Turns inside a send (R145, R146) -/

@[simp] theorem step_session_input (s : State) (rest : List Input) :
    step { s with inputs := .session :: rest } = sessionTurn { s with inputs := rest } := rfl

/-- The Bus Session performs the send's next transaction and moves on by the response. -/
theorem sessionTurn_transacts {s u : State} {j : Job} {w : Htw} (hj : s.bus.job = some j) (hw : nextWord j = some w)
    (hu : exec (decode w) s = .next u) :
    sessionTurn s = .next { u with bus := afterResponse u.bus j (u.rdata.getD 0#32) } := by
  simp only [sessionTurn, hj, hw, hostTurn, hu, absorbResponse]

/-- With no transaction left it makes the transfer. -/
theorem sessionTurn_transfers {s : State} {j : Job} (hj : s.bus.job = some j) (hw : nextWord j = none) :
    sessionTurn s = .next { s with bus := transferFrame s.cfg s.bus j } := by
  simp only [sessionTurn, hj, hw]

/-- Settles O8: the two turns of a send. -/
theorem sessionTurnRunsDecodedTransaction : Obligations.SessionTurnRunsDecodedTransaction := by
  intro s j rest hj
  refine ⟨fun w t hw ht => ?_, fun hw => ?_⟩ <;> rw [step_session_input]
  · exact sessionTurn_transacts hj hw ht
  · exact sessionTurn_transfers hj hw

/-! ### Calls outside a send (R142 to R144) -/

theorem callTurn_of_no_job {s : State} (c : Call) (rest : List Input) (hj : s.bus.job = none) :
    callTurn c rest s = .next { s with inputs := rest, bus := beginCall s.bus c } := if_pos hj

theorem step_call_input {s : State} (c : Call) (rest : List Input) (hj : s.bus.job = none) :
    step { s with inputs := .call c :: rest } = .next { s with inputs := rest, bus := beginCall s.bus c } :=
  callTurn_of_no_job (s := { s with inputs := .call c :: rest }) c rest hj

/-- Settles O54: each call is its operation of the Bus Session, and the block is left alone. -/
theorem sessionCalls : Obligations.SessionCalls := by
  intro s rest hj
  refine ⟨fun ok => step_call_input _ rest hj, fun ok => step_call_input _ rest hj, fun h => ?_,
    fun h arg answer hr => ?_, fun _ => rfl, fun _ => rfl⟩
  · refine ⟨_, step_call_input _ rest hj, rfl, hj, rfl, ?_, fun h' hne => ?_⟩
    · exact (handleState_closeHandle s.bus h h).trans (if_pos rfl)
    · exact (handleState_closeHandle s.bus h h').trans (if_neg hne)
  · rw [step_call_input _ rest hj, beginCall, beginSend_rejects answer hr]

/-! ### The life of a handle (R141) -/

theorem SessionMoves.handles {s t : State} (h : SessionMoves s t) : t.bus.handles = s.bus.handles := by
  obtain ⟨j, w, u, -, -, hu, rfl⟩ | ⟨j, -, -, rfl⟩ | ⟨-, rfl⟩ := h
  · rw [afterResponse_handles, (exec_sameOutside hu).2]
  · exact transferFrame_handles _ _ _
  · rfl

/-- Only a call changes the handles, and a call is begun outside a send (R149). -/
theorem step_handles {s t : State} (h : step s = .next t) :
    t.bus.handles = s.bus.handles ∨
      ∃ c rest, s.inputs = .call c :: rest ∧ s.bus.job = none ∧ t.bus = beginCall s.bus c := by
  obtain ⟨x, rest, hin, hm⟩ := step_cases h
  obtain ⟨i, -, he⟩ | hs | ⟨c, rfl, hj, rfl⟩ | rfl := hm
  · exact .inl (congrArg Bus.handles (exec_sameOutside he).2)
  · exact .inl hs.handles
  · exact .inr ⟨c, rest, hin, hj, rfl⟩
  · exact .inl rfl

/-- What a call does to a handle: nothing, or it closes the one it names, or `open` gives it (R141 to R143). -/
theorem handleState_beginCall (b : Bus) (c : Call) (h : Int) :
    handleState (beginCall b c) h = handleState b h ∨
    (c = .closeHandle h ∧ handleState (beginCall b c) h = .closed) ∨
    (∃ cfgOk, c = .openPath true cfgOk ∧ h = b.handles.length ∧ handleState (beginCall b c) h = .opened) := by
  cases c with
  | openPath ok cfgOk =>
    rw [beginCall, handleState_openHandle]
    split
    · rename_i hc
      obtain ⟨rfl, hh⟩ := hc
      exact .inr (.inr ⟨cfgOk, rfl, hh, rfl⟩)
    · exact .inl rfl
  | closeHandle i =>
    rw [beginCall, handleState_closeHandle]
    split
    · rename_i hi
      exact .inr (.inl ⟨by rw [hi], rfl⟩)
    · exact .inl rfl
  | sendPixels i arg answer => exact .inl (handleState_congr (beginSend_handles b i arg answer) h)

theorem handle_closed_ne_opened {x : Handle} (hc : x = .closed) : x ≠ .opened := by
  rintro rfl
  cases hc

/-- Settles O55: of the steps only a call touches a handle, and of the calls `close` its own and `open` the next one. -/
theorem closedHandlesStayClosed : Obligations.ClosedHandlesStayClosed := by
  intro s t hstep
  rcases step_handles hstep with hsame | ⟨c, rest, hin, hj, hbus⟩
  · have hstate := handleState_congr hsame
    refine ⟨fun h hlt hc => ⟨hsame ▸ hlt, (hstate h).trans hc⟩, fun h ho hc => ?_, fun h hc ho => ?_⟩
    · exact absurd ((hstate h).trans ho) (handle_closed_ne_opened hc)
    · exact absurd ((hstate h).symm.trans ho) (handle_closed_ne_opened hc)
  · rw [hbus]
    refine ⟨fun h hlt hc => ⟨hlt.trans_le (beginCall_handles_length _ _), ?_⟩, fun h ho hc => ?_, fun h hc ho => ?_⟩
    · rcases handleState_beginCall s.bus c h with hh | ⟨-, hh⟩ | ⟨cfgOk, -, hlen, -⟩
      · exact hh.trans hc
      · exact hh
      · exact absurd (Int.ofNat.inj hlen) hlt.ne
    · rcases handleState_beginCall s.bus c h with hh | ⟨rfl, -⟩ | ⟨cfgOk, -, -, hh⟩
      · exact absurd (hh.trans ho) (handle_closed_ne_opened hc)
      · exact ⟨hj, rest, hin⟩
      · exact absurd hh (handle_closed_ne_opened hc)
    · rcases handleState_beginCall s.bus c h with hh | ⟨-, hh⟩ | ⟨cfgOk, rfl, hlen, -⟩
      · exact absurd (hh.symm.trans ho) (handle_closed_ne_opened hc)
      · exact absurd ho (handle_closed_ne_opened hh)
      · exact ⟨hlen, rfl, cfgOk, rest, hin⟩

/-! ### The one transfer of a send (R146 to R148, R189) -/

/-- A send without a next transaction has collected all of its bytes. -/
theorem stage_of_no_word {j : Job} (hok : j.Ok) (hw : nextWord j = none) :
    ∃ len buf, j.stage = .dump len buf ∧ buf.length = len := by
  cases hst : j.stage with
  | load i | setCount | start | poll | readLen => simp only [nextWord, hst, reduceCtorEq] at hw
  | dump len buf =>
    simp only [nextWord, hst, ite_eq_right_iff, reduceCtorEq, imp_false, Nat.not_lt] at hw
    simp only [Job.Ok, hst] at hok
    exact ⟨len, buf, rfl, hok.antisymm hw⟩

/-- The request that a send makes for its buffer (R146, R189). -/
def requestOf (c : Config) (j : Job) (len : Nat) (buf : List Byte) : Transfer :=
  { handle := j.handle, buf := buf, len := len, clockHz := c.spiClockHz, wordBits := c.spiWordBits }

theorem transferFrame_of_dump (c : Config) (b : Bus) {j : Job} {len : Nat} {buf : List Byte}
    (hst : j.stage = .dump len buf) :
    transferFrame c b j =
      { b with
        job := none
        result := some (answerResult len j.answer)
        transfers := b.transfers ++ [requestOf c j len buf] } := by
  simp only [transferFrame, hst, requestOf]

/-- Only the transfer of a send adds a request. -/
theorem step_transfers {s t : State} (h : step s = .next t) :
    t.bus.transfers = s.bus.transfers ∨
      ∃ j rest, s.bus.job = some j ∧ nextWord j = none ∧
        t = { s with inputs := rest, bus := transferFrame s.cfg s.bus j } := by
  obtain ⟨x, rest, -, hm⟩ := step_cases h
  obtain ⟨i, -, he⟩ | (⟨j, w, u, -, -, hu, rfl⟩ | ⟨j, hj, hw, rfl⟩ | ⟨-, rfl⟩) | ⟨c, -, -, rfl⟩ | rfl := hm
  · exact .inl (congrArg Bus.transfers (exec_sameOutside he).2)
  · rw [afterResponse_transfers, (exec_sameOutside hu).2]
    exact .inl rfl
  · exact .inr ⟨j, rest, hj, hw, rfl⟩
  · exact .inl rfl
  · exact .inl (beginCall_transfers _ _)
  · exact .inl rfl

/-- Settles O56: by the invariant the buffer is whole when the transfer is made, and the handle is Open. -/
theorem oneWholeTransferEndsASend : Obligations.OneWholeTransferEndsASend := by
  intro s t hinv hstep
  rcases step_transfers hstep with hsame | ⟨j, rest, hj, hw, rfl⟩
  · exact .inl hsame
  · obtain ⟨len, buf, hst, hlen⟩ := stage_of_no_word (hinv.job_ok j hj) hw
    rw [transferFrame_of_dump _ _ hst]
    refine .inr ⟨requestOf s.cfg j len buf, j, hj, hst, rfl, rfl, rfl, hinv.job_open j hj, hlen,
      hinv.cfg_valid.spiClockHz, hinv.cfg_valid.spiWordBits, ⟨rfl, rfl, rfl, rfl, rfl, rfl, rfl, rfl, rfl, rfl⟩, ?_⟩
    cases j.answer <;> rfl

end Sys2Proof.Machine
end

section
/-! PROOFS. The host program of a send (43_host_interface.md R145 to R147, 60_exceptions.md R156, R174), run from the
call to the result: the load, the START, the engine's frame, the dump and the transfer; and the rejected count. -/

namespace Sys2Proof.Machine

/-! ### Runs -/

/-- `m` steps lead from `s` to `t`. -/
def Reaches (m : Nat) (s t : State) : Prop := Host.Core.run core m s = .next t

theorem reaches_one {s t : State} (h : step s = .next t) : Reaches 1 s t := run_succ_of_step 0 h

theorem Reaches.trans {m k : Nat} {s u t : State} (hs : Reaches m s u) (hu : Reaches k u t) : Reaches (m + k) s t := by
  induction m generalizing s with
  | zero =>
    obtain rfl : u = s := next_inj hs
    rwa [Nat.zero_add]
  | succ m ih =>
    rw [Nat.add_right_comm]
    simp only [Reaches, Host.Core.run] at hs ⊢
    split at hs
    · exact ih hs
    · cases hs
    · cases hs

/-- A loop of `n` steps: the `i`-th one leads from `P i` to `P (i + 1)`. -/
theorem reaches_loop {P : Nat → State → Prop} (n : Nat)
    (hstep : ∀ i s, i < n → P i s → ∃ t, step s = .next t ∧ P (i + 1) t) {s : State} (h : P 0 s) :
    ∃ t, Reaches n s t ∧ P n t := by
  induction n with
  | zero => exact ⟨s, rfl, h⟩
  | succ n ih =>
    obtain ⟨u, hu, hPu⟩ := ih fun i s hi => hstep i s (by omega)
    obtain ⟨t, ht, hPt⟩ := hstep n u (Nat.lt_succ_self n) hPu
    exact ⟨t, hu.trans (reaches_one ht), hPt⟩

/-! ### Places of the host program (R145) -/

/-- The state is at place `st` of the send `j` of Bus Session `b`, and nothing else is asked for. -/
structure Sending (b : Bus) (j : Job) (st : Stage) (s : State) : Prop where
  inputs : s.inputs = []
  bus : s.bus = moveTo b j st

theorem Sending.of_sameOutside {b : Bus} {j : Job} {st : Stage} {s t : State} (h : Sending b j st s)
    (hst : SameOutside s t) : Sending b j st t :=
  ⟨hst.1.trans h.inputs, hst.2.trans h.bus⟩

section Transactions
variable {b : Bus} {j : Job} {st st' : Stage} {w : Htw} {s u : State}

/-- Outside BUSY a step inside a send performs the send's next transaction. -/
theorem Sending.step_transacts (h : Sending b j st s) (hb : s.status.phase ≠ .busy)
    (hw : nextWord { j with stage := st } = some w) (hu : exec (decode w) s = .next u) :
    step s = .next
      { u with bus := afterResponse (moveTo b j st) { j with stage := st } (u.rdata.getD 0#32) } := by
  have hj : s.bus.job = some { j with stage := st } := by rw [h.bus, moveTo_job]
  rw [step_of_no_input h.inputs, unpromptedTurn_of_not_busy hb, sessionTurn_transacts hj hw hu, (exec_sameOutside hu).2,
    h.bus]

/-- It goes on at the place that the response leads to, with the block as the transaction left it. -/
theorem Sending.transacts (h : Sending b j st s) (hb : s.status.phase ≠ .busy)
    (hw : nextWord { j with stage := st } = some w) (hu : exec (decode w) s = .next u)
    (hr : afterResponse (moveTo b j st) { j with stage := st } (u.rdata.getD 0#32) = moveTo b j st') :
    ∃ t, step s = .next t ∧ SameBlock u t ∧ Sending b j st' t := by
  refine ⟨_, h.step_transacts hb hw hu, ⟨rfl, rfl, rfl, rfl, rfl, rfl, rfl, rfl, rfl, rfl⟩, ?_, hr⟩
  exact (exec_sameOutside hu).1.trans h.inputs

end Transactions

/-! ### The words of the host program (R89, log 19) -/

theorem indexField_toNat_of_lt {a : Nat} (h : a < 2 ^ 29) : (indexField a).toNat = a := by
  rw [indexField, if_pos h, BitVec.toNat_ofNat, Nat.mod_eq_of_lt h]

theorem indexField_toNat_of_le {a : Nat} (h : 2 ^ 29 ≤ a) : (indexField a).toNat = 2 ^ 29 - 1 := by
  rw [indexField, if_neg (Nat.not_lt.2 h)]
  rfl

theorem pmCapacity_lt {c : Config} (h : c.Valid) : c.pmCapacity < 2 ^ 29 - 1 := by
  have hcap := h.2.2
  rw [Config.pmCapacity, h.nMax]
  omega

/-- An index past the field is stored nowhere, as its largest value is (R60, log 19). -/
theorem storePm_indexField {s : State} (h : s.cfg.Valid) (a : Nat) (d : Byte) :
    storePm s (indexField a).toNat d = storePm s a d := by
  have hcap := pmCapacity_lt h
  rcases Nat.lt_or_ge a (2 ^ 29) with ha | ha
  · rw [indexField_toNat_of_lt ha]
  · rw [indexField_toNat_of_le ha, storePm, storePm, if_pos hcap.le, if_pos (by omega)]

theorem faultIfBusy_of_not_busy {s : State} (f : Fault) (hb : s.status.phase ≠ .busy) : faultIfBusy s f = s :=
  if_neg hb

theorem exec_wrPmWord {s : State} (h : s.cfg.Valid) (hb : s.status.phase ≠ .busy) (a : Nat) (d : Byte) :
    exec (decode (wrPmWord a d)) s = .next (respond (storePm s a d) none) := by
  rw [wrPmWord, decode_pmWrite, lowByte_setWidth, exec_wrPm, faultIfBusy_of_not_busy _ hb, storePm_indexField h]

theorem exec_wrNregWord (v : Word) (s : State) :
    exec (decode (wrNregWord v)) s = .next (respond { s with nReg := v } none) := by
  rw [wrNregWord, decode_regWrite]
  rfl

theorem exec_startWord (s : State) : exec (decode startWord) s = exec (.wrCtrl 1#32) s := by
  rw [startWord, decode_regWrite]
  rfl

theorem exec_rdStatusWord (s : State) :
    exec (decode rdStatusWord) s = .next (respond s (some (statusWord s.status))) := by
  rw [rdStatusWord, decode_regRead]
  rfl

theorem exec_rdLenWord (s : State) : exec (decode rdLenWord) s = .next (respond s (some s.len)) := by
  rw [rdLenWord, decode_regRead]
  rfl

theorem exec_rdTbWord {s : State} {a : Nat} {v : Byte} (h : s.cfg.Valid) (ha : a < s.cfg.tbCapacity)
    (hb : s.status.phase ≠ .busy) (hv : Memory.read s.tb a = some v) :
    exec (decode (rdTbWord a)) s = .next (respond s (some (zext32 v))) := by
  have hidx := indexField_toNat_of_lt (ha.trans_le h.2.2)
  rw [rdTbWord, decode_tbRead]
  exact execRdTb_of_read (by rwa [hidx]) hb (by rwa [hidx])

/-- The count that a send writes, as the block reads it (R75, log 19). -/
theorem s32_countField (n : Nat) : s32 (countField n) = (min n (2 ^ 31 - 1) : Nat) := by
  have hnat : (countField n).toNat = min n (2 ^ 31 - 1) := by
    unfold countField
    split <;> rw [BitVec.toNat_ofNat] <;> omega
  rw [s32, BitVec.toInt_eq_toNat_of_lt (by omega), hnat]

/-! ### The call and the load (R144, R145) -/

/-- The pixels are in PM up to byte `i`, as far as the block holds them; `s₀` is the state before the send. -/
structure Loaded (s₀ : State) (pixels : List Pixel) (i : Nat) (s : State) : Prop where
  cfg : s.cfg = s₀.cfg
  not_busy : s.status.phase ≠ .busy
  faults : s.faults = s₀.faults
  tb : s.tb = s₀.tb
  bytes : ∀ a, a < i → a < s₀.cfg.pmCapacity → Memory.read s.pm a = (pixelBytes pixels)[a]?

theorem Loaded.of_sameBlock {s₀ s t : State} {pixels : List Pixel} {i : Nat} (h : Loaded s₀ pixels i s)
    (hst : SameBlock s t) : Loaded s₀ pixels i t := by
  obtain ⟨hcfg, -, hstatus, -, -, -, -, hpm, htb, hfaults⟩ := hst
  exact ⟨hcfg.trans h.cfg, hstatus ▸ h.not_busy, hfaults.trans h.faults, htb.trans h.tb, hpm ▸ h.bytes⟩

theorem Loaded.storePm {s₀ s : State} {pixels : List Pixel} {i : Nat} (h : Loaded s₀ pixels i s)
    (hi : i < (pixelBytes pixels).length) :
    Loaded s₀ pixels (i + 1) (storePm s i ((pixelBytes pixels).getD i 0#8)) := by
  refine ⟨by simpa using h.cfg, by simpa using h.not_busy, by simpa using h.faults, by simpa using h.tb,
    fun a ha hcap => ?_⟩
  rw [storePm_pm, h.cfg]
  rcases Nat.lt_succ_iff_lt_or_eq.1 ha with hlt | rfl
  · split
    · exact h.bytes a hlt hcap
    · rw [Memory.read_write_other _ _ hlt.ne]
      exact h.bytes a hlt hcap
  · rw [if_neg (Nat.not_le.2 hcap), Memory.read_write_same, List.getD_eq_getElem?_getD, List.getElem?_eq_getElem hi,
      Option.getD_some]

theorem Loaded.setCount {s₀ s : State} {pixels : List Pixel} {i : Nat} (v : Word) (h : Loaded s₀ pixels i s) :
    Loaded s₀ pixels i { s with nReg := v } :=
  ⟨h.cfg, h.not_busy, h.faults, h.tb, h.bytes⟩

/-- The place of the send after `i` loaded bytes. -/
def loadStage (pixels : List Pixel) (i : Nat) : Stage :=
  if i < (pixelBytes pixels).length then .load i else .setCount

theorem Loaded.step {s₀ s : State} {b : Bus} {j : Job} {i : Nat} (hc : s₀.cfg.Valid)
    (hi : i < (pixelBytes j.pixels).length) (h : Loaded s₀ j.pixels i s) (hs : Sending b j (loadStage j.pixels i) s) :
    ∃ t, Machine.step s = .next t ∧ Loaded s₀ j.pixels (i + 1) t ∧ Sending b j (loadStage j.pixels (i + 1)) t := by
  rw [loadStage, if_pos hi] at hs
  obtain ⟨t, ht, hblock, hsend⟩ := hs.transacts (st' := loadStage j.pixels (i + 1)) h.not_busy rfl
    (exec_wrPmWord (h.cfg ▸ hc) h.not_busy _ _) (by simp only [afterResponse, loadStage]; split <;> rfl)
  exact ⟨t, ht, ((h.storePm hi).of_sameBlock (respond_sameMachine _ none).1).of_sameBlock hblock, hsend⟩

/-- The Bus Session while a send runs, but for the send itself: no result stands (R147). -/
def awaitingResult (b : Bus) : Bus := { b with result := none }

/-- A send as it begins (R145). -/
def newJob (h : Int) (pixels : List Pixel) (answer : TransferAnswer) : Job :=
  { handle := h, pixels := pixels, answer := answer, stage := .load 0 }

/-- The premises of the two claims about a whole send: the block outside BUSY, the handle Open, no send in progress, and
only this send asked for. -/
structure SendAsked (s : State) (h : Int) (pixels : List Pixel) (answer : TransferAnswer) : Prop where
  inv : s.Inv
  not_busy : s.status.phase ≠ .busy
  handle : handleState s.bus h = .opened
  no_job : s.bus.job = none
  inputs : s.inputs = [.call (.sendPixels h (.sequence pixels) answer)]
  pixel : 1 ≤ pixels.length

section Send
variable {s : State} {h : Int} {pixels : List Pixel} {answer : TransferAnswer}

/-- The call begins the send at its first byte (R144). -/
theorem SendAsked.call (ha : SendAsked s h pixels answer) :
    ∃ t, step s = .next t ∧ Loaded s pixels 0 t ∧
      Sending (awaitingResult s.bus) (newJob h pixels answer) (loadStage pixels 0) t := by
  have hstep : step s = .next { s with inputs := [], bus := beginSend s.bus h (.sequence pixels) answer } := by
    simp only [step, takeTurn, ha.inputs]
    exact callTurn_of_no_job _ _ ha.no_job
  have hstage : loadStage pixels 0 = .load 0 := if_pos (by rw [pixelBytes_length]; have := ha.pixel; omega)
  refine ⟨_, hstep, ⟨rfl, ha.not_busy, rfl, rfl, fun a hlt => absurd hlt (Nat.not_lt_zero a)⟩, rfl, ?_⟩
  rw [hstage, beginSend_begins answer ha.handle ha.pixel]
  rfl

/-- Up to its START a send has loaded the pixels and written the count, whether or not the block can hold them. -/
theorem SendAsked.reaches_start (ha : SendAsked s h pixels answer) :
    ∃ t, Reaches (3 * pixels.length + 2) s t ∧ Loaded s pixels (3 * pixels.length) t ∧
      t.nReg = countField pixels.length ∧ Sending (awaitingResult s.bus) (newJob h pixels answer) .start t := by
  have hlen := pixelBytes_length pixels
  obtain ⟨u, hu, hload, hsend⟩ := ha.call
  obtain ⟨v, hv, hload, hsend⟩ := reaches_loop
    (P := fun i t => Loaded s pixels i t ∧
      Sending (awaitingResult s.bus) (newJob h pixels answer) (loadStage pixels i) t) (3 * pixels.length)
    (fun i t hi ht => ht.1.step (j := newJob h pixels answer) ha.inv.cfg_valid (hlen ▸ hi) ht.2) ⟨hload, hsend⟩
  rw [loadStage, if_neg (by omega)] at hsend
  obtain ⟨t, ht, hblock, hsend⟩ := hsend.transacts (st' := .start) hload.not_busy rfl (exec_wrNregWord _ v) rfl
  have ⟨_, hcount, _⟩ := hblock
  refine ⟨t, ?_, (hload.setCount _).of_sameBlock hblock, hcount, hsend⟩
  rw [show 3 * pixels.length + 2 = 1 + 3 * pixels.length + 1 by omega]
  exact ((reaches_one hu).trans hv).trans (reaches_one ht)

end Send

/-! ### The answers to the poll (R145) -/

theorem afterPoll_of_done (b : Bus) (j : Job) {st : Status} (h : st.phase = .done) :
    afterPoll b j (statusWord st) = moveTo b j .readLen := by
  rw [afterPoll, phaseField_statusWord, h, if_neg (by decide), if_neg (fun hc => absurd hc.1 (by decide)),
    if_neg (fun hc => absurd hc.1 (by decide))]

theorem afterPoll_of_capacity_error (b : Bus) (j : Job) {st : Status} (hp : st.phase = .error)
    (he : st.err = .capacity) : afterPoll b j (statusWord st) = failSend b .allocation := by
  rw [afterPoll, phaseField_statusWord, errField_statusWord, hp, he, if_neg (by decide), if_pos ⟨rfl, rfl⟩]

/-! ### A count past `N_MAX` (R156, R174) -/

theorem startOutcome_of_oversized {s : State} {n : Nat} (hc : s.cfg.Valid) (hb : s.status.phase ≠ .busy)
    (hcount : s.nReg = countField n) (hn : s.cfg.nMax < n) :
    startOutcome s.cfg s.status.phase s.nReg = .reject .capacity := by
  have hcap := hc.2
  have hmax := hc.nMax
  refine (startOutcome_eq_reject hc).2 ⟨hb, .inr ⟨?_, ?_, rfl⟩⟩ <;> rw [hcount, s32_countField] <;> omega

/-- Settles O58: the START is rejected, and the poll that follows ends the send. -/
theorem oversizedSendReturnsAllocationFailure : Obligations.OversizedSendReturnsAllocationFailure := by
  intro s h pixels answer hinv hb hopen hj hin hn
  have ha : SendAsked s h pixels answer := ⟨hinv, hb, hopen, hj, hin, by omega⟩
  obtain ⟨u, hu, hload, hcount, hsend⟩ := ha.reaches_start
  have hstart : exec (decode startWord) u = .next (respond (reportError u .capacity) none) := by
    rw [exec_startWord, exec_wrCtrl_of_request rfl, startRequest_of_reject
      (startOutcome_of_oversized (hload.cfg ▸ hinv.cfg_valid) hload.not_busy hcount (hload.cfg ▸ hn))]
  obtain ⟨v, hv, ⟨-, -, hstatus, hlen, -, -, -, -, htb, -⟩, hsend⟩ :=
    hsend.transacts (st' := .poll) hload.not_busy rfl hstart rfl
  have hpoll := hsend.step_transacts (by rw [hstatus]; nofun) rfl (exec_rdStatusWord v)
  have hend : afterResponse (moveTo (awaitingResult s.bus) (newJob h pixels answer) .poll)
      { newJob h pixels answer with stage := .poll } (statusWord v.status) =
      failSend (moveTo (awaitingResult s.bus) (newJob h pixels answer) .poll) .allocation :=
    afterPoll_of_capacity_error _ _ (by rw [hstatus]; rfl) (by rw [hstatus]; rfl)
  rw [respond_rdata, Option.getD_some, hend] at hpoll
  refine ⟨_, (hu.trans (reaches_one hv)).trans (reaches_one hpoll), rfl, rfl, rfl, htb.trans hload.tb, ?_, ?_, hlen⟩
  · exact congrArg Status.phase hstatus
  · exact congrArg Status.err hstatus

/-! ### The pixels in PM (R46) -/

theorem pixelBytes_getElem? (pixels : List Pixel) {p : Nat} (hp : p < pixels.length) (ch : Channel) :
    (pixelBytes pixels)[pmIndex p ch]? = some (channelOf pixels[p] ch) := by
  induction pixels generalizing p with
  | nil => cases hp
  | cons px rest ih =>
    cases p with
    | zero => cases ch <;> rfl
    | succ p =>
      have hidx : pmIndex (p + 1) ch = pmIndex p ch + 3 := by cases ch <;> simp only [pmIndex] <;> omega
      rw [hidx]
      exact ih (Nat.lt_of_succ_lt_succ hp)

/-- A pixel memory that holds the bytes of the pixels holds the pixels. -/
theorem pixelsIn_of_bytes {m : Memory} {pixels : List Pixel}
    (h : ∀ a, a < 3 * pixels.length → Memory.read m a = (pixelBytes pixels)[a]?) :
    pixelsIn m pixels.length = pixels := by
  have hpixel (p : Nat) (hp : p < pixels.length) : pixelAt m p = pixels[p] := by
    have hread (ch : Channel) : Memory.read m (pmIndex p ch) = some (channelOf pixels[p] ch) := by
      rw [h _ (by cases ch <;> simp only [pmIndex] <;> omega), pixelBytes_getElem? pixels hp]
    simp only [pixelAt, hread, Option.getD_some]
    rfl
  exact List.ext_getElem (pixelsIn_length m _) fun p _ hp => by
    simp only [pixelsIn, List.getElem_map, List.getElem_range, hpixel p hp]

theorem pixelsWritten_of_bytes {m : Memory} {pixels : List Pixel}
    (h : ∀ a, a < 3 * pixels.length → Memory.read m a = (pixelBytes pixels)[a]?) :
    PixelsWritten m pixels.length := fun a ha => by
  rw [h a ha, List.getElem?_eq_getElem (by rwa [pixelBytes_length])]
  rfl

/-! ### The frame of a send (R115 to R118) -/

theorem FrameRun.of_sameBlock {s₀ s t : State} {n k : Nat} (h : FrameRun s₀ n k s) (hst : SameBlock s t) :
    FrameRun s₀ n k t := by
  have ⟨hcfg, _, hstatus, hlen, hengK, hengN, _, hpm, htb, hfaults⟩ := hst
  obtain ⟨he, hs, hf, hrest⟩ := h
  refine ⟨⟨hcfg.trans he.cfg, hpm.trans he.pm, hengN.trans he.engN, hengK.trans he.engK, hlen.trans he.len, ?_,
    he.written.of_sameBlock hst⟩, hstatus.trans hs, hfaults.trans hf, ?_⟩
  · rw [hstatus]
    exact he.running
  · rw [htb]
    exact hrest

/-- In BUSY the engine moves and the send waits at its poll (log 4). -/
theorem FrameRun.step {s₀ s : State} {b : Bus} {j : Job} {n k : Nat} (hc : s₀.cfg.Valid)
    (hm : PixelsWritten s₀.pm n) (hk : k < 24 * n) (h : FrameRun s₀ n k s) (hs : Sending b j .poll s) :
    ∃ t, Machine.step s = .next t ∧ FrameRun s₀ n (k + 1) t ∧ Sending b j .poll t := by
  obtain ⟨t, ht, hrun⟩ := h.engineStep hc hm hk
  have hb : s.status.phase = .busy := by
    rw [h.status, if_neg hk.ne]
    rfl
  exact ⟨t, (step_unprompted_busy hs.inputs hb).trans ht, hrun, hs.of_sameOutside (exec_sameOutside ht)⟩

/-- The frame of the pixels is complete in TB; `s₀` is the state before the send. -/
structure FrameDone (s₀ : State) (pixels : List Pixel) (s : State) : Prop where
  cfg : s.cfg = s₀.cfg
  faults : s.faults = s₀.faults
  phase : s.status.phase = .done
  len : s.len.toNat = 24 * pixels.length + 40
  frame : HoldsFrame s pixels

theorem FrameDone.of_sameBlock {s₀ s t : State} {pixels : List Pixel} (h : FrameDone s₀ pixels s)
    (hst : SameBlock s t) : FrameDone s₀ pixels t := by
  have ⟨hcfg, _, hstatus, hlen, _, _, _, _, htb, hfaults⟩ := hst
  exact ⟨hcfg.trans h.cfg, hfaults.trans h.faults, hstatus ▸ h.phase, hlen ▸ h.len, h.frame.of_same_tb hcfg htb⟩

theorem FrameDone.not_busy {s₀ s : State} {pixels : List Pixel} (h : FrameDone s₀ pixels s) :
    s.status.phase ≠ .busy := by
  rw [h.phase]
  nofun

theorem FrameDone.of_respond {s₀ s t : State} {r : Option Word} {pixels : List Pixel} (h : FrameDone s₀ pixels s)
    (hst : SameBlock (respond s r) t) : FrameDone s₀ pixels t :=
  (h.of_sameBlock (respond_sameMachine s r).1).of_sameBlock hst

section Send
variable {s : State} {h : Int} {pixels : List Pixel} {answer : TransferAnswer}

/-- With at most `N_MAX` pixels the START is accepted, and the engine completes the frame. -/
theorem SendAsked.reaches_frame (ha : SendAsked s h pixels answer) (hn : pixels.length ≤ s.cfg.nMax) :
    ∃ t, Reaches (27 * pixels.length + 3) s t ∧ FrameDone s pixels t ∧
      Sending (awaitingResult s.bus) (newJob h pixels answer) .poll t := by
  have hc := ha.inv.cfg_valid
  obtain ⟨u, hu, hload, hcount, hsend⟩ := ha.reaches_start
  have hcu : u.cfg.Valid := hload.cfg ▸ hc
  have hbytes : ∀ a, a < 3 * pixels.length → Memory.read u.pm a = (pixelBytes pixels)[a]? := fun a hlt =>
    hload.bytes a hlt (by rw [Config.pmCapacity]; omega)
  have hstarts : StartsFrame u pixels.length := by
    refine ⟨hload.not_busy, ?_, ha.pixel, hload.cfg ▸ hn⟩
    have hcap := hc.2
    have hmax := hc.nMax
    rw [hcount, s32_countField, Nat.min_eq_left (by omega)]
  obtain ⟨v, hv, hrun⟩ := frameRun_of_start hcu hstarts
  obtain ⟨x, hx, hblock, hsend⟩ := hsend.transacts (st' := .poll) hload.not_busy rfl ((exec_startWord u).trans hv) rfl
  obtain ⟨t, ht, hrun, hsend⟩ := reaches_loop
    (P := fun k t => FrameRun u pixels.length k t ∧ Sending (awaitingResult s.bus) (newJob h pixels answer) .poll t)
    (24 * pixels.length) (fun k t hk ht => ht.1.step hcu (pixelsWritten_of_bytes hbytes) hk ht.2)
    ⟨hrun.of_sameBlock hblock, hsend⟩
  obtain ⟨he, hstatus, hfaults, -⟩ := hrun
  refine ⟨t, ?_, ⟨he.cfg.trans hload.cfg, hfaults.trans hload.faults, ?_, ?_, ?_⟩, hsend⟩
  · rw [show 27 * pixels.length + 3 = 3 * pixels.length + 2 + 1 + 24 * pixels.length by omega]
    exact (hu.trans (reaches_one hx)).trans ht
  · rw [hstatus, if_pos rfl]
    rfl
  · rw [he.len]
    exact toNat_ofNat_frameLength hc hn
  · have hframe := he.holdsFrame hcu
    rwa [pixelsIn_of_bytes hbytes] at hframe

/-- The poll reads DONE and the length is read: the dump begins (R145). -/
theorem SendAsked.reaches_dump (ha : SendAsked s h pixels answer) (hn : pixels.length ≤ s.cfg.nMax) :
    ∃ t, Reaches (27 * pixels.length + 5) s t ∧ FrameDone s pixels t ∧
      Sending (awaitingResult s.bus) (newJob h pixels answer) (.dump (24 * pixels.length + 40) []) t := by
  obtain ⟨u, hu, hdone, hsend⟩ := ha.reaches_frame hn
  obtain ⟨v, hv, hblock, hsend⟩ := hsend.transacts (st' := .readLen) hdone.not_busy rfl (exec_rdStatusWord u)
    (afterPoll_of_done _ _ hdone.phase)
  have hdone := hdone.of_respond hblock
  obtain ⟨t, ht, hblock, hsend⟩ := hsend.transacts hdone.not_busy rfl (exec_rdLenWord v) rfl
  rw [respond_rdata, Option.getD_some, hdone.len] at hsend
  exact ⟨t, (hu.trans (reaches_one hv)).trans (reaches_one ht), hdone.of_respond hblock, hsend⟩

end Send

/-! ### The dump and the transfer (R145 to R147) -/

/-- One read of the dump: the next byte of the frame joins the buffer. -/
theorem FrameDone.step {s₀ s : State} {b : Bus} {j : Job} {pixels : List Pixel} {i : Nat} (hc : s₀.cfg.Valid)
    (hn : pixels.length ≤ s₀.cfg.nMax) (hi : i < 24 * pixels.length + 40) (h : FrameDone s₀ pixels s)
    (hs : Sending b j (.dump (24 * pixels.length + 40) ((encodePixels s₀.cfg pixels).take i)) s) :
    ∃ t, Machine.step s = .next t ∧ FrameDone s₀ pixels t ∧
      Sending b j (.dump (24 * pixels.length + 40) ((encodePixels s₀.cfg pixels).take (i + 1))) t := by
  have hlt : i < (encodePixels s₀.cfg pixels).length := by rwa [encodePixels_length hc]
  have htake : ((encodePixels s₀.cfg pixels).take i).length = i := List.length_take_of_le hlt.le
  have hread : Memory.read s.tb i = some (encodePixels s₀.cfg pixels)[i] := by
    rw [h.frame i hi, h.cfg, List.getElem?_eq_getElem hlt]
  have hword : nextWord { j with stage := .dump (24 * pixels.length + 40) ((encodePixels s₀.cfg pixels).take i) } =
      some (rdTbWord i) := by
    simp only [nextWord, htake, if_pos hi]
  obtain ⟨t, ht, hblock, hsend⟩ := hs.transacts h.not_busy hword
    (exec_rdTbWord (h.cfg ▸ hc) (h.cfg ▸ frame_within_tb hc hn hi) h.not_busy hread) rfl
  rw [respond_rdata, Option.getD_some, lowByte_zext32, List.take_append_getElem hlt] at hsend
  exact ⟨t, ht, h.of_respond hblock, hsend⟩

/-- With the whole buffer collected a step makes the transfer (R146). -/
theorem Sending.step_transfer {b : Bus} {j : Job} {buf : List Byte} {s : State}
    (h : Sending b j (.dump buf.length buf) s) (hb : s.status.phase ≠ .busy) :
    step s = .next { s with
      bus := { b with
        job := none
        result := some (answerResult buf.length j.answer)
        transfers := b.transfers ++ [requestOf s.cfg j buf.length buf] } } := by
  have hj : s.bus.job = some { j with stage := .dump buf.length buf } := by rw [h.bus, moveTo_job]
  have hw : nextWord { j with stage := .dump buf.length buf } = none := if_neg (Nat.lt_irrefl _)
  rw [step_of_no_input h.inputs, unpromptedTurn_of_not_busy hb, sessionTurn_transfers hj hw, h.bus]
  rfl

/-- Settles O57: the load, the engine's frame and the dump are one loop each, and the buffer they lead to is the encoded
frame. -/
theorem sendTransfersTheEncodedFrame : Obligations.SendTransfersTheEncodedFrame := by
  intro s h pixels answer hinv hb hopen hj hin hpos hn
  have ha : SendAsked s h pixels answer := ⟨hinv, hb, hopen, hj, hin, hpos⟩
  have hc := hinv.cfg_valid
  have hlen := encodePixels_length hc pixels
  obtain ⟨u, hu, hdone, hsend⟩ := ha.reaches_dump hn
  obtain ⟨v, hv, hdone, hsend⟩ := reaches_loop
    (P := fun i t => FrameDone s pixels t ∧ Sending (awaitingResult s.bus) (newJob h pixels answer)
      (.dump (24 * pixels.length + 40) ((encodePixels s.cfg pixels).take i)) t)
    (24 * pixels.length + 40) (fun i t hi ht => ht.1.step hc hn hi ht.2) ⟨hdone, hsend⟩
  rw [← hlen, List.take_length] at hsend
  have hlast := hsend.step_transfer hdone.not_busy
  rw [hdone.cfg, hlen] at hlast
  have hrun := (hu.trans hv).trans (reaches_one hlast)
  rw [show 27 * pixels.length + 5 + (24 * pixels.length + 40) + 1 = 51 * pixels.length + 46 by omega] at hrun
  refine ⟨_, hrun, rfl, hdone.faults, hdone.phase, rfl, ?_, ?_⟩
  · simp only [requestOf, hc.spiClockHz, hc.spiWordBits, newJob, awaitingResult]
  · cases answer <;> rfl

end Sys2Proof.Machine
end

section
/-! PROOFS. Exceptions (60_exceptions.md R160 to R163): the fault set only grows, and what each
operation can add to it. -/

namespace Sys2Proof.Machine

/-! ### The fault set only grows (R163) -/

theorem faultIfBusy_faults_subset (s : State) (f : Fault) : s.faults ⊆ (faultIfBusy s f).faults := fun _ hg =>
  mem_faultIfBusy.2 (.inl hg)

theorem latchIfFirst_faults_subset (s : State) : s.faults ⊆ (latchIfFirst s).faults := by
  unfold latchIfFirst
  split
  · exact fun _ hf => mem_latchPixel.2 (.inl hf)
  · exact List.Subset.refl _

theorem Update.faults_subset {i : Instr} {s u : State} (hu : Update i s u) : s.faults ⊆ u.faults := by
  cases hu with
  | nothing | setsCount v | ignoresStart hi hb | rejectsStart hi hb he | acceptsStart hi hb hn hl
  | zeroesTail hn hk => exact List.Subset.refl _
  | storesPm a d | storesTb a d => simpa using faultIfBusy_faults_subset s _
  | advances hb => simpa using latchIfFirst_faults_subset s
  | resets => simp

theorem exec_faults_subset {i : Instr} {s t : State} (he : exec i s = .next t) : s.faults ⊆ t.faults := by
  obtain ⟨u, hu, ⟨-, -, -, -, -, -, -, -, -, hfaults⟩, -⟩ := exec_cases he
  exact hfaults ▸ hu.faults_subset

theorem SessionMoves.faults_subset {s t : State} (hm : SessionMoves s t) : s.faults ⊆ t.faults := by
  obtain ⟨j, w, u, -, -, hu, rfl⟩ | ⟨j, -, -, rfl⟩ | ⟨-, rfl⟩ := hm
  · exact (exec_faults_subset hu :)
  · exact List.Subset.refl _
  · exact List.Subset.refl _

theorem Moves.faults_subset {x : Option Input} {u t : State} (hm : Moves x u t) : u.faults ⊆ t.faults := by
  obtain ⟨i, -, he⟩ | hs | ⟨c, -, -, rfl⟩ | rfl := hm
  · exact exec_faults_subset he
  · exact hs.faults_subset
  · exact List.Subset.refl _
  · exact List.Subset.refl _

/-- Settles O15: taking an input leaves the fault set, and no move removes a fault. -/
theorem faultsAreSticky : Obligations.FaultsAreSticky := by
  intro s t hstep f hf
  obtain ⟨x, rest, -, hm⟩ := step_cases hstep
  exact hm.faults_subset hf

/-! ### Where a fault comes from (R160 to R162) -/

/-- What an engine step records: the bytes without a value of the pixel it reads, at the first byte of a pixel only
(R116, R162). -/
theorem mem_advanceEngine_faults {s : State} (h : s.cfg.Valid) {f : Fault} :
    f ∈ (advanceEngine s).faults ↔ f ∈ s.faults ∨ (s.engK % 24 = 0 ∧
      ∃ ch, Memory.read s.pm (pmIndex (s.engK / 24) ch) = none ∧ f = .uninitPm (pmIndex (s.engK / 24) ch)) := by
  rw [advanceEngine_faults]
  by_cases hk : s.engK % 24 = 0
  · simp only [latchIfFirst_of_first h hk, mem_latchPixel, hk, true_and]
  · simp only [latchIfFirst_of_later h hk, hk, false_and, or_false]

/-- Settles O16: of the updates only a PM write, a TB write and an engine step touch the fault set, and each adds its
own reason. -/
theorem faultsComeFromBrokenDuties : Obligations.FaultsComeFromBrokenDuties := by
  intro i s t f hc he hf
  obtain ⟨u, hu, ⟨-, -, -, -, -, -, -, -, -, hfaults⟩, -⟩ := exec_cases he
  rw [hfaults] at hf
  cases hu with
  | nothing | setsCount v | ignoresStart hi hb | rejectsStart hi hb he | acceptsStart hi hb hn hl
  | zeroesTail hn hk => exact .inl hf
  | storesPm a d =>
    rw [storePm_faults, mem_faultIfBusy] at hf
    exact hf.imp_right fun ⟨hb, hf⟩ => .inl ⟨a, d, rfl, hb, hf⟩
  | storesTb a d =>
    rw [storeTb_faults, mem_faultIfBusy] at hf
    exact hf.imp_right fun ⟨hb, hf⟩ => .inr (.inl ⟨a, d, rfl, hb, hf⟩)
  | advances hb =>
    rw [mem_advanceEngine_faults hc] at hf
    exact hf.imp_right fun ⟨hk, ch, hread, hf⟩ => .inr (.inr ⟨ch, rfl, hb, hk, hread, hf⟩)
  | resets =>
    rw [applyReset_faults, abortFrame_faults] at hf
    exact .inl hf

end Sys2Proof.Machine
end

section
/-! PROOFS. Reset and hazards (70_reset_and_hazards.md R177 to R196): every state has a next state, what RESET restores
and keeps, what kept host duties rule out, and the durations on the wire. -/

namespace Sys2Proof.Machine

/-! ### Every state has a next state (R123, R153, R191, log 4) -/

theorem engineTurn_completes (s : State) : ∃ t, engineTurn s = .next t := by
  by_cases hb : s.status.phase = .busy
  · exact ⟨_, (engineTurn_of_busy hb).trans (exec_engineStep_of_busy hb)⟩
  · exact ⟨s, engineTurn_of_not_busy hb⟩

theorem sessionTurn_completes (s : State) : ∃ t, sessionTurn s = .next t := by
  cases hj : s.bus.job with
  | none => exact ⟨s, sessionTurn_of_no_job hj⟩
  | some j =>
    cases hw : nextWord j with
    | none => exact ⟨_, sessionTurn_transfers hj hw⟩
    | some w =>
      obtain ⟨u, hu⟩ := everyHostTransactionCompletes w s
      exact ⟨_, sessionTurn_transacts hj hw hu⟩

theorem unpromptedTurn_completes (s : State) : ∃ t, unpromptedTurn s = .next t := by
  by_cases hb : s.status.phase = .busy
  · rw [unpromptedTurn_of_busy hb]
    exact engineTurn_completes s
  · rw [unpromptedTurn_of_not_busy hb]
    exact sessionTurn_completes s

theorem callTurn_completes (c : Call) (rest : List Input) (s : State) : ∃ t, callTurn c rest s = .next t := by
  by_cases hj : s.bus.job = none
  · exact ⟨_, callTurn_of_no_job c rest hj⟩
  · rw [callTurn, if_neg hj]
    exact unpromptedTurn_completes s

/-- Settles O10: whichever turn the inputs choose answers a next state. -/
theorem stepAlwaysHasANextState : Obligations.StepAlwaysHasANextState := by
  intro s
  unfold step takeTurn
  split
  · exact unpromptedTurn_completes s
  · exact everyHostTransactionCompletes _ _
  · exact engineTurn_completes _
  · exact ⟨_, rfl⟩
  · exact sessionTurn_completes _
  · exact callTurn_completes _ _ s

/-! ### Reset (R177, R178) -/

/-- Settles O53: the reset values are those of `applyReset`; TB is what `abortFrame` leaves of it. -/
theorem resetRestoresResetValues : Obligations.ResetRestoresResetValues := by
  intro s
  refine ⟨applyReset (abortFrame s), rfl, rfl, rfl, rfl, rfl, rfl, rfl, rfl, abortFrame_pm s, abortFrame_faults s,
    ⟨abortFrame_inputs s, abortFrame_bus s⟩, fun hb => ?_, fun hb => ?_⟩
  · rw [applyReset_tb, abortFrame_tb, if_neg hb]
  · rw [applyReset_tb, abortFrame_tb, if_pos hb]
    refine ⟨fun a ha => ?_, fun a ha => ?_⟩
    · rw [Memory.read_forgetFirst, if_pos ha]
    · rw [Memory.read_forgetFirst, if_neg (Nat.not_lt_of_le ha)]

/-! ### Kept host duties (R184, R186, R187) -/

theorem not_busy_of_pmWrite_duty {a : Index} {d : Byte} {s : State} (h : dutyKept (.wrPm a d) s = true) :
    s.status.phase ≠ .busy := of_decide_eq_true h

theorem not_busy_of_tbWrite_duty {a : Index} {d : Byte} {s : State} (h : dutyKept (.wrTb a d) s = true) :
    s.status.phase ≠ .busy := of_decide_eq_true h

/-- The duty of R187 keeps every START request out of BUSY. -/
theorem not_busy_of_start_duty {i : Instr} {s : State} (hi : RequestsStart i ∨ i = .startIgnore)
    (h : dutyKept i s = true) : s.status.phase ≠ .busy := by
  obtain ⟨v, rfl, hv⟩ | rfl := hi
  · rw [dutyKept, requestsStart, hv] at h
    exact of_decide_eq_true h
  · exact of_decide_eq_true h

/-- An engine step records unwritten PM bytes only, whatever the build-time parameters (R116, R162). -/
theorem advanceEngine_adds_only_uninitPm {s : State} {f : Fault} (hf : f ∈ (advanceEngine s).faults) :
    f ∈ s.faults ∨ ∃ a, f = .uninitPm a := by
  rw [advanceEngine_faults, latchIfFirst] at hf
  split at hf
  · exact (mem_latchPixel.1 hf).imp_right fun ⟨ch, _, hf⟩ => ⟨_, hf⟩
  · exact .inl hf

@[simp] theorem completeIfLast_ovr (s : State) : (completeIfLast s).status.ovr = s.status.ovr := by
  unfold completeIfLast
  split <;> rfl

@[simp] theorem advanceEngine_ovr (s : State) : (advanceEngine s).status.ovr = s.status.ovr := by
  simp [advanceEngine]

/-- A memory write records its fault in BUSY only, which its duty excludes (R160, R161, R184, R186). -/
theorem Update.adds_only_uninitPm {i : Instr} {s u : State} (hu : Update i s u) (hk : dutyKept i s = true)
    {f : Fault} (hf : f ∈ u.faults) : f ∈ s.faults ∨ ∃ a, f = .uninitPm a := by
  cases hu with
  | nothing | setsCount v | ignoresStart hi hb | rejectsStart hi hb he | acceptsStart hi hb hn hl
  | zeroesTail hn hz => exact .inl hf
  | storesPm a d =>
    rw [storePm_faults, faultIfBusy_of_not_busy _ (not_busy_of_pmWrite_duty hk)] at hf
    exact .inl hf
  | storesTb a d =>
    rw [storeTb_faults, faultIfBusy_of_not_busy _ (not_busy_of_tbWrite_duty hk)] at hf
    exact .inl hf
  | advances hb => exact advanceEngine_adds_only_uninitPm hf
  | resets =>
    rw [applyReset_faults, abortFrame_faults] at hf
    exact .inl hf

/-- Only a START in BUSY sets `OVR`, which its duty excludes (R113, R187). -/
theorem Update.ovr_of_duty {i : Instr} {s u : State} (hu : Update i s u) (hk : dutyKept i s = true)
    (ho : u.status.ovr = true) : s.status.ovr = true := by
  cases hu with
  | nothing | setsCount v | storesPm a d | storesTb a d | zeroesTail hn hz | advances hb => simpa using ho
  | ignoresStart hi hb => exact absurd hb (not_busy_of_start_duty hi hk)
  | rejectsStart hi hb he | acceptsStart hi hb hn hl | resets => cases ho

/-- Settles O17: the update an operation makes adds no other fault and sets no overrun, and its answer keeps both. -/
theorem keptDutiesAddOnlyUninitPm : Obligations.KeptDutiesAddOnlyUninitPm := by
  intro i s t hk he
  obtain ⟨u, hu, ⟨-, -, hstatus, -, -, -, -, -, -, hfaults⟩, -⟩ := exec_cases he
  rw [hstatus, hfaults]
  exact ⟨fun _ hf => hu.adds_only_uninitPm hk hf, hu.ovr_of_duty hk⟩

/-! ### Durations on the wire (R193, R194, R196) -/

theorem bitTimePs_of_valid {c : Config} (h : c.Valid) : bitTimePs c = 156250 := by
  rw [bitTimePs, h.spiClockHz]

theorem symbolTimePs_of_valid {c : Config} (h : c.Valid) : symbolTimePs c = 1250000 := by
  rw [symbolTimePs, h.spiWordBits, bitTimePs_of_valid h]

theorem wireTimePs_of_valid {c : Config} (h : c.Valid) (nBytes : Nat) : wireTimePs c nBytes = nBytes * 1250000 := by
  rw [wireTimePs, symbolTimePs_of_valid h]

/-- Settles O60: every duration is a multiple of the bit's or the symbol's, and a frame has `24 N + 40` symbols. -/
theorem wireDurations : Obligations.WireDurations := by
  intro c hc
  rw [bitTimePs_of_valid hc, symbolTimePs_of_valid hc, wireTimePs_of_valid hc]
  refine ⟨rfl, rfl, rfl, rfl, rfl, fun pixels => ?_⟩
  rw [wireTimePs_of_valid hc, encodePixels_length hc]

end Sys2Proof.Machine
end
